-- ==== Sys2Proof/Word.lean ====
section
/-! DEFINITION. The value types of the codec block (00_scope.md R6, R8). -/

namespace Sys2Proof

/-- `BYTE` of R6: an 8-bit unsigned value. -/
abbrev Byte := BitVec 8

/-- A waveshape point: 16 bits (R6 `N_POINT`, R27). -/
abbrev Point := BitVec 16

/-- The command word of R81: 12 bits. -/
abbrev CommandWord := BitVec 12

/-- `WBYTE` of R6 as a check: a wire byte lies in 0..127. -/
def isWire (b : Byte) : Bool := b.toNat < 128

/-- A name byte of R21: an ASCII code in 32..126. -/
def isPrintable (b : Byte) : Bool := 32 ≤ b.toNat && b.toNat ≤ 126

end Sys2Proof
end

