-- ==== Sys2Proof/Config.lean ====
section
/-! DEFINITION. The parameters an integrator fixes before the first operation
(00_scope.md R6, 10_state.md R28 and R29, 70_reset_and_hazards.md R232). -/

namespace Sys2Proof

/-- The open parameters of the block (D5, D8, D29). No operation writes one
(R28, R29, R64, R232). A statement over every `Config` holds for every value. -/
structure Config where
  /-- `SYSID` of R29: the three bytes that lead every frame. -/
  sysid : List Byte
  /-- `MAX_SEQ_LEN` of R6: the longest operand of MSB.PACK and MSB.UNPACK. -/
  maxSeqLen : Nat
  /-- `PROG_ID` of R28: the identifier of each program wire index, as an opaque token. -/
  progId : List Nat
  /-- `MAIN_ID` of R28: the identifier of each main wire index, as an opaque token. -/
  mainId : List Nat
deriving DecidableEq, Repr

/-- What R6, R28 and R29 ask of the parameters: three SYSID bytes in 0..127,
`MAX_SEQ_LEN` at least 343, two tables of 128 and 16 pairwise different identifiers. -/
abbrev Config.wf (c : Config) : Prop :=
  c.sysid.length = 3 ∧ (∀ b ∈ c.sysid, isWire b = true) ∧ 343 ≤ c.maxSeqLen ∧
    c.progId.length = 128 ∧ c.progId.Nodup ∧ c.mainId.length = 16 ∧ c.mainId.Nodup

/-- The parameter values of `State.reset`. SYSID is the default of R6, which the spec
marks as general knowledge (PRESUMED, unsafe, log 4). MAX_SEQ_LEN is the least value R6
allows (DESIGN CHOICE, unsafe, log 5). The identifiers are numbered by wire index
(DESIGN CHOICE, safe, log 6). -/
def Config.default : Config where
  sysid := [0x01, 0x20, 0x01]
  maxSeqLen := 343
  progId := List.range 128
  mainId := List.range 16

end Sys2Proof
end

