-- ==== Sys2Proof/Syntax.lean ====
section
/-! DEFINITION. Operations of the block and the requests that name them
(30_encoding.md R81 to R84, R88): one constructor of `Instr` per row of the
opcode table. -/

namespace Sys2Proof

/-- One operand as a client presents it with the command word (R82). Address operands
(bank, program, waveshape, wire index, step) are unbounded naturals (DESIGN CHOICE,
safe, log 7). -/
inductive Operand where
  /-- A value operand of type BYTE (R82, R130). -/
  | byte (v : Byte)
  /-- An address operand, checked against its range by the operation (R78, R130). -/
  | addr (n : Nat)
  /-- A byte sequence: an MSB operand, a 16-byte name, a snapshot part, a frame (R82). -/
  | bytes (bs : List Byte)
  /-- A sequence of character codes, naturals (R82, R111). -/
  | codes (cs : List Nat)
  /-- A sequence of 16-bit waveshape points (R133). -/
  | points (ps : List Point)
deriving DecidableEq, Repr

/-- One transaction's request: the command word and its operands (R81). -/
structure Request where
  cmd : CommandWord
  operands : List Operand
deriving DecidableEq, Repr

/-- Why the command interface refuses a request (R84). -/
inductive Reject where
  /-- op 0x8..0xF is reserved (R82, R84). -/
  | reservedOp
  /-- A non-ASM op with kind other than 0x00 (R81, R84). -/
  | kindNotZero
  /-- op 0x6 with a kind that is no assigned identifier (R72, R83, R84). -/
  | unassignedKind
  /-- The operands are not those the operation takes (R82, R84). -/
  | operandKinds
deriving DecidableEq, Repr

/-- Why PARSE does not accept a frame, before its identifier's own rule (R160). -/
inductive FrameFault where
  /-- The first three bytes are not SYSID, or there are fewer than three (R161). -/
  | foreign
  /-- No identifier byte (R162): `none`; else a byte of 0x80 or more (R163), an
  identifier outside the inbound kinds (R164) or a wrong length (R173), with the
  identifier byte that R203 records. -/
  | unrecognized (id : Option Byte)
deriving DecidableEq, Repr

/-- The operations. A `parse<Kind>` constructor is PARSE of a frame of that kind, its
payload fields pulled out (R74); `parse` is PARSE of any frame (R160). See log 11. -/
inductive Instr where
  | nibEnc (v : Byte)
  | nibDec (lo hi : Byte)
  | msbPack (u : List Byte)
  | msbUnpack (w : List Byte)
  | strEnc (name : List Nat)
  | strDec (b : List Byte)
  | asmProgParam (index : Nat) (value : Byte)
  | asmProgramDump (bank program : Nat) (params seq : List Byte)
  | asmEditDump (params seq : List Byte)
  | asmCtrlReset
  | asmReqProgram (bank program : Nat)
  | asmReqEdit
  | asmSeqStep (step : Nat) (value : Byte)
  | asmMainParam (index : Nat) (value : Byte)
  | asmWaveDump (waveshape : Nat) (pts : List Point)
  | asmReqWave (waveshape : Nat)
  | asmReqMain
  | asmMainDump (params : List Byte)
  | asmReqName (bank program : Nat)
  | asmNameDump (bank program : Nat) (name : List Nat)
  | asmCtrlStartStop
  | asmCtrlShiftOn
  | asmCtrlShiftOff
  | parse (f : List Byte)
  | parseProgParam (index lo hi : Byte)
  | parseProgramDump (bank program : Byte) (packed : List Byte)
  | parseEditDump (packed : List Byte)
  | parseSeqStep (step lo hi : Byte)
  | parseMainParam (index lo hi : Byte)
  | parseWaveDump (waveshape : Byte) (packed : List Byte)
  | parseMainDump (nibbles : List Byte)
  | parseNameDump (bank program : Byte) (name : List Byte)
deriving DecidableEq, Repr

end Sys2Proof
end

