-- ==== Sys2Proof/WellFormed.lean ====
section
/-! DEFINITION. The operand shapes the spec gives each operation: what R82 and R84 ask
of a command's operands, and what R163 and R173 ask of an inbound frame's payload. -/

namespace Sys2Proof

/-- Every byte is a 7-bit wire value (R53, R163). -/
def allWire (bs : List Byte) : Bool := bs.all isWire

/-- The operands have the shape their operation takes. An operation on operands that
do not is still modelled: it answers REFUSED (R84) or, for a frame, UNRECOGNIZED
(R163, R173). Address ranges are no shapes: outside them an operation answers RANGE. -/
def Instr.wf (c : Config) : Instr → Bool
  | .nibEnc _ => true
  | .nibDec _ _ => true
  | .msbPack u => u.length ≤ c.maxSeqLen
  | .msbUnpack w => w.length ≤ c.maxSeqLen
  | .strEnc _ => true
  | .strDec b => b.length == 16
  | .asmProgParam _ _ => true
  | .asmProgramDump _ _ params seq => params.length == 128 && seq.length == 64
  | .asmEditDump params seq => params.length == 128 && seq.length == 64
  | .asmCtrlReset => true
  | .asmReqProgram _ _ => true
  | .asmReqEdit => true
  | .asmSeqStep _ _ => true
  | .asmMainParam _ _ => true
  | .asmWaveDump _ pts => pts.length == 128
  | .asmReqWave _ => true
  | .asmReqMain => true
  | .asmMainDump params => params.length == 16
  | .asmReqName _ _ => true
  | .asmNameDump _ _ _ => true
  | .asmCtrlStartStop => true
  | .asmCtrlShiftOn => true
  | .asmCtrlShiftOff => true
  | .parse _ => true
  | .parseProgParam index lo hi => allWire [index, lo, hi]
  | .parseProgramDump bank program packed => allWire (bank :: program :: packed) && packed.length == 220
  | .parseEditDump packed => allWire packed && packed.length == 220
  | .parseSeqStep step lo hi => allWire [step, lo, hi]
  | .parseMainParam index lo hi => allWire [index, lo, hi]
  | .parseWaveDump waveshape packed => allWire (waveshape :: packed) && packed.length == 293
  | .parseMainDump nibbles => allWire nibbles && nibbles.length == 32
  | .parseNameDump bank program name => allWire (bank :: program :: name) && name.length == 16

end Sys2Proof
end

