-- ==== Sys2Proof/Decode.lean ====
section
/-! DEFINITION. From a request to an operation and back (30_encoding.md R70 to R86):
the fields of the command word, the acceptance checks of an inbound frame, the decoder,
the encoder, and the opcode table's numbering of its words. -/

namespace Sys2Proof

/-- `cmd[11:8]`, the operation selector (R81). -/
def opField (cmd : CommandWord) : Nat := (cmd >>> 8).toNat

/-- `cmd[7:0]`, the kind (R81). -/
def kindField (cmd : CommandWord) : Byte := cmd.setWidth 8

/-- A frame: SYSID, the identifier byte, the payload (R70). -/
def frame (sysid : List Byte) (id : Byte) (payload : List Byte) : List Byte :=
  sysid ++ id :: payload

/-- `PAYLOAD_LEN` of R160 (from R74): the payload length of an inbound identifier,
`none` for every identifier the parser does not accept (R73, R164). -/
def inboundPayloadLen (id : Byte) : Option Nat :=
  if id = 0x01 then some 3
  else if id = 0x02 then some 222
  else if id = 0x03 then some 220
  else if id = 0x08 then some 3
  else if id = 0x09 then some 3
  else if id = 0x0A then some 294
  else if id = 0x0F then some 32
  else if id = 0x11 then some 18
  else none

/-- The checks of R163, R164 and R173, in R160's order, on the bytes after SYSID. -/
def bodyCheck (id : Byte) (payload : List Byte) : Except FrameFault Unit :=
  if (id :: payload).any (fun b => 128 ≤ b.toNat) then .error (.unrecognized (some id))
  else if inboundPayloadLen id = none then .error (.unrecognized (some id))
  else if inboundPayloadLen id ≠ some payload.length then .error (.unrecognized (some id))
  else .ok ()

/-- R160 up to its `case`: the frame's identifier and payload if every check passes. -/
def frameCheck (sysid f : List Byte) : Except FrameFault (Byte × List Byte) :=
  if f.length < 3 ∨ f.take 3 ≠ sysid then .error .foreign
  else match f.drop 3 with
    | [] => .error (.unrecognized none)
    | id :: payload =>
      match bodyCheck id payload with
      | .ok _ => .ok (id, payload)
      | .error e => .error e

/-- Payload byte k (R74). The acceptance checks make every k that is asked for present. -/
def payloadByte (p : List Byte) (k : Nat) : Byte := p.getD k 0

/-- The PARSE row of an accepted frame: its identifier selects the row, and the
payload's fields are those of R74. -/
def decodeBody (id : Byte) (p : List Byte) : Option Instr :=
  if id = 0x01 then some (.parseProgParam (payloadByte p 0) (payloadByte p 1) (payloadByte p 2))
  else if id = 0x02 then some (.parseProgramDump (payloadByte p 0) (payloadByte p 1) (p.drop 2))
  else if id = 0x03 then some (.parseEditDump p)
  else if id = 0x08 then some (.parseSeqStep (payloadByte p 0) (payloadByte p 1) (payloadByte p 2))
  else if id = 0x09 then some (.parseMainParam (payloadByte p 0) (payloadByte p 1) (payloadByte p 2))
  else if id = 0x0A then some (.parseWaveDump (payloadByte p 0) (p.drop 1))
  else if id = 0x0F then some (.parseMainDump p)
  else if id = 0x11 then some (.parseNameDump (payloadByte p 0) (payloadByte p 1) (p.drop 2))
  else none

/-- The row that a frame selects, if PARSE accepts the frame (R160). -/
def decodeFrame (sysid f : List Byte) : Option Instr :=
  match frameCheck sysid f with
  | .ok (id, p) => decodeBody id p
  | .error _ => none

/-! Operand lists of R82 and of 41_assembler.md, one function per list of operand
kinds; any other list is a wrong shape (R84, log 8). -/

/-- No operands. -/
def takeNone (i : Instr) : List Operand → Except Reject Instr
  | [] => .ok i
  | _ => .error .operandKinds

/-- One BYTE. -/
def takeByte (mk : Byte → Instr) : List Operand → Except Reject Instr
  | [.byte v] => .ok (mk v)
  | _ => .error .operandKinds

/-- Two BYTEs. -/
def takeByteByte (mk : Byte → Byte → Instr) : List Operand → Except Reject Instr
  | [.byte v, .byte w] => .ok (mk v w)
  | _ => .error .operandKinds

/-- One byte sequence. -/
def takeBytes (mk : List Byte → Instr) : List Operand → Except Reject Instr
  | [.bytes bs] => .ok (mk bs)
  | _ => .error .operandKinds

/-- Two byte sequences. -/
def takeBytesBytes (mk : List Byte → List Byte → Instr) : List Operand → Except Reject Instr
  | [.bytes bs, .bytes cs] => .ok (mk bs cs)
  | _ => .error .operandKinds

/-- One sequence of character codes. -/
def takeCodes (mk : List Nat → Instr) : List Operand → Except Reject Instr
  | [.codes cs] => .ok (mk cs)
  | _ => .error .operandKinds

/-- One address. -/
def takeAddr (mk : Nat → Instr) : List Operand → Except Reject Instr
  | [.addr a] => .ok (mk a)
  | _ => .error .operandKinds

/-- An address and a BYTE. -/
def takeAddrByte (mk : Nat → Byte → Instr) : List Operand → Except Reject Instr
  | [.addr a, .byte v] => .ok (mk a v)
  | _ => .error .operandKinds

/-- An address and a sequence of points. -/
def takeAddrPoints (mk : Nat → List Point → Instr) : List Operand → Except Reject Instr
  | [.addr a, .points ps] => .ok (mk a ps)
  | _ => .error .operandKinds

/-- Two addresses. -/
def takeAddrAddr (mk : Nat → Nat → Instr) : List Operand → Except Reject Instr
  | [.addr a, .addr b] => .ok (mk a b)
  | _ => .error .operandKinds

/-- Two addresses and a sequence of character codes. -/
def takeAddrAddrCodes (mk : Nat → Nat → List Nat → Instr) : List Operand → Except Reject Instr
  | [.addr a, .addr b, .codes cs] => .ok (mk a b cs)
  | _ => .error .operandKinds

/-- Two addresses and a snapshot: its parameters and its sequencer steps. -/
def takeAddrAddrBytesBytes (mk : Nat → Nat → List Byte → List Byte → Instr) :
    List Operand → Except Reject Instr
  | [.addr a, .addr b, .bytes bs, .bytes cs] => .ok (mk a b bs cs)
  | _ => .error .operandKinds

/-- ASM: the kind is the identifier of the frame to build (R83), and each kind takes
the operands of its own rule in 41_assembler.md. -/
def decodeAsm (kind : Byte) (ops : List Operand) : Except Reject Instr :=
  match kind.toNat with
  | 0x01 => takeAddrByte .asmProgParam ops
  | 0x02 => takeAddrAddrBytesBytes .asmProgramDump ops
  | 0x03 => takeBytesBytes .asmEditDump ops
  | 0x04 => takeNone .asmCtrlReset ops
  | 0x05 => takeAddrAddr .asmReqProgram ops
  | 0x06 => takeNone .asmReqEdit ops
  | 0x08 => takeAddrByte .asmSeqStep ops
  | 0x09 => takeAddrByte .asmMainParam ops
  | 0x0A => takeAddrPoints .asmWaveDump ops
  | 0x0B => takeAddr .asmReqWave ops
  | 0x0E => takeNone .asmReqMain ops
  | 0x0F => takeBytes .asmMainDump ops
  | 0x10 => takeAddrAddr .asmReqName ops
  | 0x11 => takeAddrAddrCodes .asmNameDump ops
  | 0x12 => takeNone .asmCtrlStartStop ops
  | 0x13 => takeNone .asmCtrlShiftOn ops
  | 0x14 => takeNone .asmCtrlShiftOff ops
  | _ => .error .unassignedKind

/-- PARSE of a frame: the row its identifier selects if R160 accepts the frame, else
PARSE itself, which then answers what R160's checks say (log 11). -/
def parseRow (sysid f : List Byte) : Instr := (decodeFrame sysid f).getD (.parse f)

/-- The ops other than ASM (R82), the kind already known to be 0x00. -/
def decodeOp (sysid : List Byte) (op : Nat) (ops : List Operand) : Except Reject Instr :=
  match op with
  | 0x0 => takeByte .nibEnc ops
  | 0x1 => takeByteByte .nibDec ops
  | 0x2 => takeBytes .msbPack ops
  | 0x3 => takeBytes .msbUnpack ops
  | 0x4 => takeCodes .strEnc ops
  | 0x5 => takeBytes .strDec ops
  | 0x7 => takeBytes (parseRow sysid) ops
  | _ => .error .reservedOp

/-- The command interface (R81 to R84): the operation a request invokes, or the reason
it is refused. Lengths of sequences are checked by the operation (R84, R104, R107). -/
def decode (sysid : List Byte) (r : Request) : Except Reject Instr :=
  if opField r.cmd = 0x6 then decodeAsm (kindField r.cmd) r.operands
  else if 0x8 ≤ opField r.cmd then .error .reservedOp
  else if kindField r.cmd ≠ 0x00 then .error .kindNotZero
  else decodeOp sysid (opField r.cmd) r.operands

/-- The request that invokes an operation: its command word from R82 and R83 and its
operands in the order of its rule; a PARSE row's frame is built by R70 and R74. -/
def encode (sysid : List Byte) : Instr → Request
  | .nibEnc v => ⟨0x000, [.byte v]⟩
  | .nibDec lo hi => ⟨0x100, [.byte lo, .byte hi]⟩
  | .msbPack u => ⟨0x200, [.bytes u]⟩
  | .msbUnpack w => ⟨0x300, [.bytes w]⟩
  | .strEnc name => ⟨0x400, [.codes name]⟩
  | .strDec b => ⟨0x500, [.bytes b]⟩
  | .asmProgParam index value => ⟨0x601, [.addr index, .byte value]⟩
  | .asmProgramDump bank program params seq =>
    ⟨0x602, [.addr bank, .addr program, .bytes params, .bytes seq]⟩
  | .asmEditDump params seq => ⟨0x603, [.bytes params, .bytes seq]⟩
  | .asmCtrlReset => ⟨0x604, []⟩
  | .asmReqProgram bank program => ⟨0x605, [.addr bank, .addr program]⟩
  | .asmReqEdit => ⟨0x606, []⟩
  | .asmSeqStep step value => ⟨0x608, [.addr step, .byte value]⟩
  | .asmMainParam index value => ⟨0x609, [.addr index, .byte value]⟩
  | .asmWaveDump waveshape pts => ⟨0x60A, [.addr waveshape, .points pts]⟩
  | .asmReqWave waveshape => ⟨0x60B, [.addr waveshape]⟩
  | .asmReqMain => ⟨0x60E, []⟩
  | .asmMainDump params => ⟨0x60F, [.bytes params]⟩
  | .asmReqName bank program => ⟨0x610, [.addr bank, .addr program]⟩
  | .asmNameDump bank program name => ⟨0x611, [.addr bank, .addr program, .codes name]⟩
  | .asmCtrlStartStop => ⟨0x612, []⟩
  | .asmCtrlShiftOn => ⟨0x613, []⟩
  | .asmCtrlShiftOff => ⟨0x614, []⟩
  | .parse f => ⟨0x700, [.bytes f]⟩
  | .parseProgParam index lo hi => ⟨0x700, [.bytes (frame sysid 0x01 [index, lo, hi])]⟩
  | .parseProgramDump bank program packed =>
    ⟨0x700, [.bytes (frame sysid 0x02 (bank :: program :: packed))]⟩
  | .parseEditDump packed => ⟨0x700, [.bytes (frame sysid 0x03 packed)]⟩
  | .parseSeqStep step lo hi => ⟨0x700, [.bytes (frame sysid 0x08 [step, lo, hi])]⟩
  | .parseMainParam index lo hi => ⟨0x700, [.bytes (frame sysid 0x09 [index, lo, hi])]⟩
  | .parseWaveDump waveshape packed => ⟨0x700, [.bytes (frame sysid 0x0A (waveshape :: packed))]⟩
  | .parseMainDump nibbles => ⟨0x700, [.bytes (frame sysid 0x0F nibbles)]⟩
  | .parseNameDump bank program name =>
    ⟨0x700, [.bytes (frame sysid 0x11 (bank :: program :: name))]⟩

/-! ### The opcode table's numbering (log 13) -/

/-- A run of zero bytes. -/
def zeroBytes (n : Nat) : List Byte := List.replicate n 0

/-- The operands of a defined command word with every operand zero, and `none` for a
command word R84 refuses. -/
def zeroOperands (cmd : CommandWord) : Option (List Operand) :=
  match cmd.toNat with
  | 0x000 => some [.byte 0]
  | 0x100 => some [.byte 0, .byte 0]
  | 0x200 => some [.bytes []]
  | 0x300 => some [.bytes []]
  | 0x400 => some [.codes []]
  | 0x500 => some [.bytes (zeroBytes 16)]
  | 0x601 => some [.addr 0, .byte 0]
  | 0x602 => some [.addr 0, .addr 0, .bytes (zeroBytes 128), .bytes (zeroBytes 64)]
  | 0x603 => some [.bytes (zeroBytes 128), .bytes (zeroBytes 64)]
  | 0x604 => some []
  | 0x605 => some [.addr 0, .addr 0]
  | 0x606 => some []
  | 0x608 => some [.addr 0, .byte 0]
  | 0x609 => some [.addr 0, .byte 0]
  | 0x60A => some [.addr 0, .points (List.replicate 128 0)]
  | 0x60B => some [.addr 0]
  | 0x60E => some []
  | 0x60F => some [.bytes (zeroBytes 16)]
  | 0x610 => some [.addr 0, .addr 0]
  | 0x611 => some [.addr 0, .addr 0, .codes []]
  | 0x612 => some []
  | 0x613 => some []
  | 0x614 => some []
  | 0x700 => some [.bytes []]
  | _ => none

/-- The request a table word stands for. A CMD row's bits 11..0 are the command word;
a FRAME row's bits 7..0 are the identifier byte of a frame given to PARSE, its payload
all zeros. A word of one byte is a FRAME row's, a word of two bytes a CMD row's; a
longer one (the table's `frame_length` and `payload_length` bits, which are no bits of
the encoding, log 13) is a CMD row's if its low 12 bits are a defined command word. -/
def tableRequest (sysid : List Byte) (nbits w : Nat) : Request :=
  let cmd : CommandWord := BitVec.ofNat 12 w
  let id : Byte := BitVec.ofNat 8 w
  if 8 < nbits && (nbits ≤ 16 || (zeroOperands cmd).isSome) then ⟨cmd, (zeroOperands cmd).getD []⟩
  else ⟨0x700, [.bytes (frame sysid id (zeroBytes ((inboundPayloadLen id).getD 0)))]⟩

/-- What the decoder reads from a table word, under the reset parameters; `none` where
the command interface refuses it. -/
def decodeTableWord (nbits w : Nat) : Option Instr :=
  match decode Config.default.sysid (tableRequest Config.default.sysid nbits w) with
  | .ok i => some i
  | .error _ => none

end Sys2Proof
end

