-- ==== Sys2Proof/Machine/State.lean ====
section
/-! DEFINITION. The machine's state as plain data (10_state.md): the mirror, the
parameters, the clients' arrivals and the last response; its reset value (R36). -/

namespace Sys2Proof.Machine

/-- Status codes of a response (R30). -/
inductive Status where
  /-- The operation completed. -/
  | ok
  /-- A nibble or value out of its declared bounds (R201). -/
  | range
  /-- A name longer than 16 characters (R202). -/
  | overflow
  /-- An inbound frame PARSE does not recognise (R203). -/
  | unrecognized
  /-- An inbound frame whose first three bytes are not SYSID (R204). -/
  | foreign
  /-- A command word or operand shape the interface does not define (R205). -/
  | refused
deriving DecidableEq, Repr

/-- The number of a status (R30). -/
def Status.code : Status → Nat
  | .ok => 0
  | .range => 1
  | .overflow => 2
  | .unrecognized => 3
  | .foreign => 4
  | .refused => 5

/-- Effect tags: the region PARSE wrote (R30). -/
inductive Tag where
  | none
  | editParam (i : Nat)
  | seqStep (s : Nat)
  | mainParam (i : Nat)
  | editAll
  | cellParams (b p : Nat)
  | cellName (b p : Nat)
  | wave (w : Nat)
  | mainAll
deriving DecidableEq, Repr

/-- The result of an operation that completed (the result column of R82). -/
inductive Result where
  /-- No result: every error, and PARSE, whose result is its effect tag. -/
  | none
  /-- NIB.ENC's (lo, hi). -/
  | pair (lo hi : Byte)
  /-- NIB.DEC's value. -/
  | byte (v : Byte)
  /-- The sequence of MSB.PACK, MSB.UNPACK, STR.ENC or STR.DEC. -/
  | bytes (bs : List Byte)
  /-- The frame of an ASM operation. -/
  | frame (f : List Byte)
deriving DecidableEq, Repr

/-- An error that ends an operation: its status and the info R201 to R203 record
(as a list of naturals, log 10). -/
structure Err where
  status : Status
  info : List Nat
deriving DecidableEq, Repr

/-- The response of an operation (R30). -/
structure Response where
  status : Status
  info : List Nat
  result : Result
  tag : Tag
deriving DecidableEq, Repr

/-- The edit buffer: `M.edit` (R22, R23). -/
structure EditBuffer where
  /-- `M.edit.param`: 128 BYTEs by program wire index. -/
  param : List Byte
  /-- `M.edit.seq`: 64 BYTEs by step. -/
  seq : List Byte
deriving DecidableEq, Repr

/-- The main state: `M.main` (R24, R25). -/
structure MainState where
  /-- `M.main.param`: 16 BYTEs by main wire index. -/
  param : List Byte
  /-- `M.main.bank`: unknown, or a bank in 0..3. -/
  bank : Option (Fin 4)
  /-- `M.main.program`: unknown, or a program in 0..127. -/
  program : Option (Fin 128)
deriving DecidableEq, Repr

/-- A matrix cell: two independently optional parts (R21, R26). -/
structure Cell where
  /-- unknown, or the 192 unpacked bytes of a program dump in wire order. -/
  params : Option (List Byte)
  /-- unknown, or 16 name bytes, each in 32..126. -/
  name : Option (List Byte)
deriving DecidableEq, Repr

/-- The mirror `M`: exactly the regions of R21. -/
structure Mirror where
  edit : EditBuffer
  main : MainState
  /-- `M.cell[b][p]` is entry `128 * b + p`, of 512. -/
  cells : List Cell
  /-- `M.wave[w]`: 128 entries, each unknown or 128 points (R27). -/
  waves : List (Option (List Point))
deriving DecidableEq, Repr

/-- A value a cell's params part can hold (R21): unknown, or 192 BYTEs. -/
abbrev paramsLegal (v : Option (List Byte)) : Prop := ∀ s ∈ v, s.length = 192

/-- A value a cell's name part can hold (R21): unknown, or 16 bytes, each in 32..126. -/
abbrev nameLegal (v : Option (List Byte)) : Prop :=
  ∀ n ∈ v, n.length = 16 ∧ ∀ c ∈ n, isPrintable c = true

/-- A value a waveshape entry can hold (R21): unknown, or 128 points. -/
abbrev waveLegal (v : Option (List Point)) : Prop := ∀ pts ∈ v, pts.length = 128

/-- Both parts of a cell hold values of their types. -/
abbrev Cell.wf (c : Cell) : Prop := paramsLegal c.params ∧ nameLegal c.name

/-- The mirror has the shape of R21: every region has its length and every element a
value of its type. It is the mirror's one canonical form: the regions have no other
representation, so equal mirrors are equal data. -/
abbrev Mirror.wf (m : Mirror) : Prop :=
  m.edit.param.length = 128 ∧ m.edit.seq.length = 64 ∧ m.main.param.length = 16 ∧
    m.cells.length = 512 ∧ (∀ c ∈ m.cells, c.wf) ∧
    m.waves.length = 128 ∧ ∀ v ∈ m.waves, waveLegal v

/-- A write of the environment agent (R34): local edits of the edit buffer, archival
into a matrix cell, and changes of the current bank and program (log 14). -/
inductive EnvWrite where
  | editParam (i : Nat) (v : Byte)
  | editSeq (step : Nat) (v : Byte)
  | cellParams (bank program : Nat) (v : Option (List Byte))
  | cellName (bank program : Nat) (v : Option (List Byte))
  | bank (v : Option (Fin 4))
  | program (v : Option (Fin 128))
deriving DecidableEq, Repr

/-- What a client does next (R56, R212): invoke an operation, or write the mirror from
outside. The agent is identified by what it invokes. -/
inductive Event where
  | command (r : Request)
  | envWrite (w : EnvWrite)
deriving DecidableEq, Repr

/-- Why the machine stops. No operation of the block does (R208 to R210). -/
inductive Fault where
  /-- Raised by `step` alone, when the next arrival is an environment write with an index
  or a value outside R34's element types, which no client of the spec makes. Safe: the
  spec gives such a write no meaning (log 14). -/
  | illTypedEnvWrite
deriving DecidableEq, Repr

/-- Why an operation has no meaning in the model. -/
inductive Refusal where
  /-- An operation of the table without a meaning; raised by no arm of `exec`, since
  every row has one. Safe. -/
  | notModelled (mnemonic : String)
deriving DecidableEq, Repr

/-- The machine. `mirror` and `config` are the spec's state (R21, R28, R29, R36);
`arrivals` and `response` are the model's own, the two sides of the command interface
(R81, R30; log 1, 2). -/
structure State where
  /-- The mirror `M` (R21). -/
  mirror : Mirror
  /-- The parameters fixed before the first operation (R6, R232). -/
  config : Config
  /-- What the clients present from here on, in the total order of R56, oldest first.
  The block does not fix that order (R57): a claim holds for every list. -/
  arrivals : List Event
  /-- The response of the last command the block answered (R30). Nothing reads it. -/
  response : Option Response
deriving DecidableEq, Repr

/-- The mirror after reset (R36). -/
def Mirror.reset : Mirror where
  edit := ⟨List.replicate 128 0, List.replicate 64 0⟩
  main := ⟨List.replicate 16 0, none, none⟩
  cells := List.replicate 512 ⟨none, none⟩
  waves := List.replicate 128 none

/-- The machine after reset (R36, R230, R231): the mirror at its reset values, the
parameters at their default (log 4, 5, 6), nothing presented and nothing answered yet
(log 1, 2). -/
def State.reset : State where
  mirror := Mirror.reset
  config := Config.default
  arrivals := []
  response := none

end Sys2Proof.Machine
end

