-- ==== Sys2Proof/Machine/Flags.lean ====
section
/-! DEFINITION. The flag byte of a packed group (20_memory.md R52, 30_encoding.md R75).
The block has no flags register (R20); these are the only flags the spec has. -/

namespace Sys2Proof.Machine

/-- Bit k of the flag byte is bit 7 of the group's data byte k (R52); bits with no data
byte are 0 (R104, D2). `k` is the place of the list's first byte in its group. -/
def flagFrom (k : Nat) : List Byte → Byte
  | [] => 0
  | b :: bs => ((b >>> 7) <<< k) ||| flagFrom (k + 1) bs

/-- The flag byte of a group (R104). -/
def flagByte (grp : List Byte) : Byte := flagFrom 0 grp

/-- A data byte as packed: its top bit cleared (R104). -/
def clearTop (b : Byte) : Byte := b &&& 0x7F

/-- R107's inner loop: data byte k gets its top bit set if flag bit k is set and is
otherwise unchanged, so a set top bit survives (R109). -/
def restoreFrom (flag : Byte) (k : Nat) : List Byte → List Byte
  | [] => []
  | d :: ds => (if flag.getLsbD k then d ||| 0x80 else d) :: restoreFrom flag (k + 1) ds

/-- The data bytes of a group with their top bits restored (R107). -/
def restoreGroup (flag : Byte) (data : List Byte) : List Byte := restoreFrom flag 0 data

end Sys2Proof.Machine
end

