-- ==== Sys2Proof/Machine/Operands.lean ====
section
/-! DEFINITION. How operand values are checked and assembled (30_encoding.md R78, R87;
41_assembler.md R130; 40_codecs.md R114). -/

namespace Sys2Proof.Machine

/-! ### Checks -/

/-- A `RANGE` error with the operand values it records (R201). -/
def rangeErr (info : List Nat) : Err := ⟨.range, info⟩

/-- An address operand against its range (R78, R130): RANGE with the operand. -/
def checkBelow (limit n : Nat) : Except Err Unit :=
  if limit ≤ n then .error (rangeErr [n]) else .ok ()

/-- A bank, 0..3 (R78). -/
def checkBank (n : Nat) : Except Err Unit := checkBelow 4 n

/-- A program, 0..127 (R78). -/
def checkProgram (n : Nat) : Except Err Unit := checkBelow 128 n

/-- A waveshape, 0..127 (R78). -/
def checkWaveshape (n : Nat) : Except Err Unit := checkBelow 128 n

/-- A program wire index, 0..127 (R78). -/
def checkProgIndex (n : Nat) : Except Err Unit := checkBelow 128 n

/-- A main wire index, 0..15 (R78). -/
def checkMainIndex (n : Nat) : Except Err Unit := checkBelow 16 n

/-- A sequencer step, 0..63 (R78). -/
def checkStep (n : Nat) : Except Err Unit := checkBelow 64 n

/-- An operand shape the command interface defines, else REFUSED (R84, R206 item 1). -/
def checkShape (ok : Bool) : Except Err Unit :=
  if ok then .ok () else .error ⟨.refused, []⟩

/-- A snapshot operand: 128 parameters and 64 steps (R131). -/
def snapshotShape (params seq : List Byte) : Bool := params.length == 128 && seq.length == 64

/-! ### Values -/

/-- One byte on the wire for an address that passed its check (R78). -/
def addrByte (n : Nat) : Byte := BitVec.ofNat 8 n

/-- v[3:0] (R51, R100). -/
def lowNibble (v : Byte) : Byte := v &&& 0x0F

/-- v[7:4] (R51, R100). -/
def highNibble (v : Byte) : Byte := v >>> 4

/-- `lo | (hi << 4)` (R87, R101). -/
def joinNibbles (lo hi : Byte) : Byte := lo ||| (hi <<< 4)

/-- A point as two bytes, low byte first (R50). -/
def pointBytes (pt : Point) : List Byte := [pt.setWidth 8, (pt >>> 8).setWidth 8]

/-- The 2n bytes of n points (R133). -/
def bytesOfPoints (pts : List Point) : List Byte := pts.flatMap pointBytes

/-- `b[2i] | (b[2i+1] << 8)` (R50, R87). -/
def joinBytes (lo hi : Byte) : Point := lo.setWidth 16 ||| (hi.setWidth 16 <<< 8)

/-- The points of a byte sequence, two bytes each, low byte first (R50, R167). -/
def pointsOfBytes : List Byte → List Point
  | lo :: hi :: rest => joinBytes lo hi :: pointsOfBytes rest
  | _ => []

/-- A name byte as STR.DEC reads it: itself if in 32..126, else a space (R87, R112). -/
def nameChar (b : Byte) : Byte := if isPrintable b then b else 0x20

/-- A program snapshot in schema order: the parameters by wire index, then the steps (R54). -/
def snapshotBytes (params seq : List Byte) : List Byte := params ++ seq

/-! ### Schema lookups (R28, R114): no command word exposes them -/

/-- `PROG_ID(i)`: the identifier of a program wire index. -/
def progIdOf (c : Config) (i : Nat) : Option Nat := c.progId[i]?

/-- `PROG_IDX(id)`: the program wire index of an identifier. -/
def progIdxOf (c : Config) (id : Nat) : Option Nat := c.progId.idxOf? id

/-- `MAIN_ID(i)`: the identifier of a main wire index. -/
def mainIdOf (c : Config) (i : Nat) : Option Nat := c.mainId[i]?

/-- `MAIN_IDX(id)`: the main wire index of an identifier. -/
def mainIdxOf (c : Config) (id : Nat) : Option Nat := c.mainId.idxOf? id

end Sys2Proof.Machine
end

