-- ==== Sys2Proof/Machine/Ops.lean ====
section
/-! DEFINITION. The shared operations: the codecs (40_codecs.md), reads and writes of
the mirror (10_state.md R21 to R27), frame assembly (41_assembler.md R130), and how an
operation ends: with a response, or with an error, which is this block's whole
exception (60_exceptions.md R200, R208 to R210). -/

namespace Sys2Proof.Machine

/-! ### Codecs -/

/-- R101: the value of a nibble pair, or RANGE unless both nibbles are below 16. -/
def nibDec (lo hi : Byte) : Except Err Byte :=
  if lo.toNat < 16 ∧ hi.toNat < 16 then .ok (joinNibbles lo hi)
  else .error (rangeErr [lo.toNat, hi.toNat])

/-- The pair of wire bytes of a value, low nibble first (R76, R100). -/
def nibPair (v : Byte) : List Byte := [lowNibble v, highNibble v]

/-- The values of consecutive nibble pairs, or the error of the first bad pair (R168, R206). -/
def nibDecAll : List Byte → Except Err (List Byte)
  | lo :: hi :: rest => do
    let v ← nibDec lo hi
    let vs ← nibDecAll rest
    return v :: vs
  | _ => .ok []

/-- A packed group: the flag byte, then the data bytes with top bits cleared (R104). -/
def packGroup (grp : List Byte) : List Byte := flagByte grp :: grp.map clearTop

/-- R104: group g of `ceil(len / 7)` is `u[7g .. min(7g + 7, len))`; the empty sequence
has no groups and packs to the empty sequence (R105). -/
def pack (u : List Byte) : List Byte :=
  (List.range ((u.length + 6) / 7)).flatMap fun g => packGroup ((u.drop (7 * g)).take 7)

/-- One wire group: its first byte is the flag, the rest its data (R107). -/
def unpackGroup : List Byte → List Byte
  | [] => []
  | flag :: data => restoreGroup flag data

/-- R107: wire group g of `ceil(len / 8)` is `w[8g .. min(8g + 8, len))`. -/
def unpack (w : List Byte) : List Byte :=
  (List.range ((w.length + 7) / 8)).flatMap fun g => unpackGroup ((w.drop (8 * g)).take 8)

/-- R111: OVERFLOW for a name longer than 16, checked first; RANGE for the first code
above 127; else the codes as bytes, padded with spaces to 16. -/
def strEnc (name : List Nat) : Except Err (List Byte) :=
  if 16 < name.length then .error ⟨.overflow, [name.length]⟩
  else match name.find? (127 < ·) with
    | some c => .error (rangeErr [c])
    | none => .ok (name.map (BitVec.ofNat 8) ++ List.replicate (16 - name.length) 0x20)

/-- R112: each byte itself if printable, else a space. -/
def strDec (b : List Byte) : List Byte := b.map nameChar

/-! ### The mirror: reads and writes of one element or one entity -/

/-- The place of `M.cell[b][p]` in the list of cells. -/
def cellIndex (b p : Nat) : Nat := 128 * b + p

/-- `M.edit.param[i]` (0 at an index R21 does not give; no operation reads there). -/
def Mirror.editParam (m : Mirror) (i : Nat) : Byte := m.edit.param.getD i 0

/-- `M.edit.seq[s]`. -/
def Mirror.editSeq (m : Mirror) (step : Nat) : Byte := m.edit.seq.getD step 0

/-- `M.main.param[i]`. -/
def Mirror.mainParam (m : Mirror) (i : Nat) : Byte := m.main.param.getD i 0

/-- `M.cell[b][p].params`. -/
def Mirror.cellParams (m : Mirror) (b p : Nat) : Option (List Byte) :=
  (m.cells.getD (cellIndex b p) ⟨none, none⟩).params

/-- `M.cell[b][p].name`. -/
def Mirror.cellName (m : Mirror) (b p : Nat) : Option (List Byte) :=
  (m.cells.getD (cellIndex b p) ⟨none, none⟩).name

/-- `M.wave[w]`. -/
def Mirror.wave (m : Mirror) (w : Nat) : Option (List Point) := m.waves.getD w none

/-- `M.edit.param[i] <- v`. -/
def Mirror.setEditParam (m : Mirror) (i : Nat) (v : Byte) : Mirror :=
  { m with edit := { m.edit with param := m.edit.param.set i v } }

/-- `M.edit.seq[s] <- v`. -/
def Mirror.setEditSeq (m : Mirror) (step : Nat) (v : Byte) : Mirror :=
  { m with edit := { m.edit with seq := m.edit.seq.set step v } }

/-- The whole edit buffer from 192 unpacked bytes: `param[i] <- u[i]`,
`seq[s] <- u[128 + s]` (R166). -/
def Mirror.setEditAll (m : Mirror) (u : List Byte) : Mirror :=
  { m with edit := ⟨u.take 128, u.drop 128⟩ }

/-- `M.main.param[i] <- v`. -/
def Mirror.setMainParam (m : Mirror) (i : Nat) (v : Byte) : Mirror :=
  { m with main := { m.main with param := m.main.param.set i v } }

/-- All main parameters; bank and program stay (R25, R168). -/
def Mirror.setMainAll (m : Mirror) (vs : List Byte) : Mirror :=
  { m with main := { m.main with param := vs } }

/-- `M.main.bank <- v` (environment only, R25, R34). -/
def Mirror.setBank (m : Mirror) (v : Option (Fin 4)) : Mirror :=
  { m with main := { m.main with bank := v } }

/-- `M.main.program <- v` (environment only, R25, R34). -/
def Mirror.setProgram (m : Mirror) (v : Option (Fin 128)) : Mirror :=
  { m with main := { m.main with program := v } }

/-- `M.cell[b][p].params <- v`; the name part stays (R165). -/
def Mirror.setCellParams (m : Mirror) (b p : Nat) (v : Option (List Byte)) : Mirror :=
  { m with cells := m.cells.modify (cellIndex b p) fun c => { c with params := v } }

/-- `M.cell[b][p].name <- v`; the params part stays (R169). -/
def Mirror.setCellName (m : Mirror) (b p : Nat) (v : Option (List Byte)) : Mirror :=
  { m with cells := m.cells.modify (cellIndex b p) fun c => { c with name := v } }

/-- `M.wave[w] <- v`. -/
def Mirror.setWave (m : Mirror) (w : Nat) (v : Option (List Point)) : Mirror :=
  { m with waves := m.waves.set w v }

/-! ### How an operation ends -/

/-- The outcome of one step of this machine. -/
abbrev Out := Host.Outcome State Fault Refusal

/-- The response port takes a response (R30). -/
def State.respond (s : State) (r : Response) : State := { s with response := some r }

/-- TAKING AN ERROR (R200, R209): the one shared operation. The response carries the
error's status and info, no result and tag NONE; everything else stays as it was before
the operation. Nothing is saved and control goes nowhere (R209); there is no return from
an error (R210), so no operation stands beside this one. -/
def State.raise (s : State) (e : Err) : State := s.respond ⟨e.status, e.info, .none, .none⟩

/-- `return (OK, result)` of an operation that does not write the mirror (R31, R32). -/
def State.answer (s : State) (r : Result) : State := s.respond ⟨.ok, [], r, .none⟩

/-- `return (OK, tag)` of PARSE: the staged writes take effect together (R10, R55). -/
def State.commit (s : State) (m : Mirror) (tag : Tag) : State :=
  { s with mirror := m }.respond ⟨.ok, [], .none, tag⟩

/-- The end of an operation that computes a result and writes nothing. -/
def finish (x : Except Err Result) (s : State) : Out :=
  match x with
  | .ok r => .next (s.answer r)
  | .error e => .next (s.raise e)

/-- The end of a PARSE: the merged mirror and its tag, or an error and no write (R55). -/
def finishParse (x : Except Err (Mirror × Tag)) (s : State) : Out :=
  match x with
  | .ok (m, tag) => .next (s.commit m tag)
  | .error e => .next (s.raise e)

/-- Item (3) of R130: an ASM's result is SYSID, its identifier and its payload. -/
def asmFrame (s : State) (id : Byte) (payload : List Byte) : Result :=
  .frame (frame s.config.sysid id payload)

/-! ### The other side of the port -/

/-- The environment write is of R34's kinds: its index lies in its region and its value
is one the region's element type admits. -/
def EnvWrite.legal : EnvWrite → Bool
  | .editParam i _ => i < 128
  | .editSeq step _ => step < 64
  | .cellParams b p v => decide (b < 4 ∧ p < 128 ∧ paramsLegal v)
  | .cellName b p v => decide (b < 4 ∧ p < 128 ∧ nameLegal v)
  | .bank _ => true
  | .program _ => true

/-- The mirror after an environment write (R34). -/
def EnvWrite.apply (m : Mirror) : EnvWrite → Mirror
  | .editParam i v => m.setEditParam i v
  | .editSeq step v => m.setEditSeq step v
  | .cellParams b p v => m.setCellParams b p v
  | .cellName b p v => m.setCellName b p v
  | .bank v => m.setBank v
  | .program v => m.setProgram v

/-- An environment write takes effect between operations (R34, R56); it has no response
(log 14). -/
def doEnvWrite (w : EnvWrite) (s : State) : Out :=
  if w.legal then .next { s with mirror := w.apply s.mirror } else .fault .illTypedEnvWrite

/-- A request the command interface does not define: REFUSED, and nothing else (R84, R205). -/
def refuseRequest (s : State) : Out := .next (s.raise ⟨.refused, []⟩)

end Sys2Proof.Machine
end

