-- ==== Sys2Proof/Machine/Assembler.lean ====
section
/-! DEFINITION. The message assembler (41_assembler.md): each kind checks its operands'
shape (R84), then its addresses left to right, then computes its payload, then returns
the frame (R130, R206). No kind reads or writes the mirror (R32). -/

namespace Sys2Proof.Machine

/-! ### Single-parameter updates -/

/-- ASM.PROG_PARAM (R141): SYSID 01 index lo hi. -/
def execAsmProgParam (index : Nat) (value : Byte) (s : State) : Out :=
  finish (do
    checkProgIndex index
    return asmFrame s 0x01 (addrByte index :: nibPair value)) s

/-- ASM.SEQ_STEP (R142): SYSID 08 step lo hi. -/
def execAsmSeqStep (step : Nat) (value : Byte) (s : State) : Out :=
  finish (do
    checkStep step
    return asmFrame s 0x08 (addrByte step :: nibPair value)) s

/-- ASM.MAIN_PARAM (R143): SYSID 09 index lo hi. -/
def execAsmMainParam (index : Nat) (value : Byte) (s : State) : Out :=
  finish (do
    checkMainIndex index
    return asmFrame s 0x09 (addrByte index :: nibPair value)) s

/-! ### Dumps -/

/-- ASM.PROGRAM_DUMP (R131): SYSID 02 bank program, then the packed snapshot. The 192
bytes are within MAX_SEQ_LEN (R6), so MSB.PACK does not refuse them. -/
def execAsmProgramDump (bank program : Nat) (params seq : List Byte) (s : State) : Out :=
  finish (do
    checkShape (snapshotShape params seq)
    checkBank bank
    checkProgram program
    return asmFrame s 0x02 (addrByte bank :: addrByte program :: pack (snapshotBytes params seq))) s

/-- ASM.EDIT_DUMP (R132): SYSID 03, then the packed snapshot. -/
def execAsmEditDump (params seq : List Byte) (s : State) : Out :=
  finish (do
    checkShape (snapshotShape params seq)
    return asmFrame s 0x03 (pack (snapshotBytes params seq))) s

/-- ASM.WAVE_DUMP (R133): SYSID 0A waveshape, then the packed points, low byte first. -/
def execAsmWaveDump (waveshape : Nat) (pts : List Point) (s : State) : Out :=
  finish (do
    checkShape (pts.length == 128)
    checkWaveshape waveshape
    return asmFrame s 0x0A (addrByte waveshape :: pack (bytesOfPoints pts))) s

/-- ASM.MAIN_DUMP (R134): SYSID 0F, then each parameter's nibble pair. -/
def execAsmMainDump (params : List Byte) (s : State) : Out :=
  finish (do
    checkShape (params.length == 16)
    return asmFrame s 0x0F (params.flatMap nibPair)) s

/-- ASM.NAME_DUMP (R135): SYSID 11 bank program, then the encoded name. -/
def execAsmNameDump (bank program : Nat) (name : List Nat) (s : State) : Out :=
  finish (do
    checkBank bank
    checkProgram program
    let b ← strEnc name
    return asmFrame s 0x11 (addrByte bank :: addrByte program :: b)) s

/-! ### Requests -/

/-- ASM.REQ_PROGRAM (R136): SYSID 05 bank program. -/
def execAsmReqProgram (bank program : Nat) (s : State) : Out :=
  finish (do
    checkBank bank
    checkProgram program
    return asmFrame s 0x05 [addrByte bank, addrByte program]) s

/-- ASM.REQ_EDIT (R137): SYSID 06. -/
def execAsmReqEdit (s : State) : Out := finish (.ok (asmFrame s 0x06 [])) s

/-- ASM.REQ_WAVE (R138): SYSID 0B waveshape. -/
def execAsmReqWave (waveshape : Nat) (s : State) : Out :=
  finish (do
    checkWaveshape waveshape
    return asmFrame s 0x0B [addrByte waveshape]) s

/-- ASM.REQ_MAIN (R139): SYSID 0E. -/
def execAsmReqMain (s : State) : Out := finish (.ok (asmFrame s 0x0E [])) s

/-- ASM.REQ_NAME (R140): SYSID 10 bank program. -/
def execAsmReqName (bank program : Nat) (s : State) : Out :=
  finish (do
    checkBank bank
    checkProgram program
    return asmFrame s 0x10 [addrByte bank, addrByte program]) s

/-! ### Control commands -/

/-- ASM.CTRL_RESET (R150): SYSID 04. It resets nothing of the block (R36). -/
def execAsmCtrlReset (s : State) : Out := finish (.ok (asmFrame s 0x04 [])) s

/-- ASM.CTRL_STARTSTOP (R151): SYSID 12. -/
def execAsmCtrlStartStop (s : State) : Out := finish (.ok (asmFrame s 0x12 [])) s

/-- ASM.CTRL_SHIFT_ON (R152): SYSID 13. -/
def execAsmCtrlShiftOn (s : State) : Out := finish (.ok (asmFrame s 0x13 [])) s

/-- ASM.CTRL_SHIFT_OFF (R153): SYSID 14. -/
def execAsmCtrlShiftOff (s : State) : Out := finish (.ok (asmFrame s 0x14 [])) s

end Sys2Proof.Machine
end

