-- ==== Sys2Proof/Machine/Codec.lean ====
section
/-! DEFINITION. The codec operations (40_codecs.md): pure functions of their operands,
which neither read nor write the mirror (R31). -/

namespace Sys2Proof.Machine

/-- NIB.ENC (R100): (v[3:0], v[7:4]); always OK. -/
def execNibEnc (v : Byte) (s : State) : Out :=
  finish (.ok (.pair (lowNibble v) (highNibble v))) s

/-- NIB.DEC (R101): `lo | (hi << 4)`, or RANGE unless both are below 16. -/
def execNibDec (lo hi : Byte) (s : State) : Out :=
  finish (do
    let v ← nibDec lo hi
    return .byte v) s

/-- MSB.PACK (R103 to R106); REFUSED for an operand longer than MAX_SEQ_LEN (R84). -/
def execMsbPack (u : List Byte) (s : State) : Out :=
  finish (do
    checkShape (u.length ≤ s.config.maxSeqLen)
    return .bytes (pack u)) s

/-- MSB.UNPACK (R107 to R109); REFUSED for an operand longer than MAX_SEQ_LEN (R84). -/
def execMsbUnpack (w : List Byte) (s : State) : Out :=
  finish (do
    checkShape (w.length ≤ s.config.maxSeqLen)
    return .bytes (unpack w)) s

/-- STR.ENC (R111): 16 bytes, OVERFLOW or RANGE. -/
def execStrEnc (name : List Nat) (s : State) : Out :=
  finish (do
    let b ← strEnc name
    return .bytes b) s

/-- STR.DEC (R112): 16 bytes in 32..126; REFUSED for another length (R84). -/
def execStrDec (b : List Byte) (s : State) : Out :=
  finish (do
    checkShape (b.length == 16)
    return .bytes (strDec b)) s

end Sys2Proof.Machine
end

