-- ==== Sys2Proof/Machine/Parser.lean ====
section
/-! DEFINITION. The message parser (42_parser.md): the only operations that write the
mirror (R33). Each merge below is the rule of one inbound kind; it yields the mirror to
commit and the tag, or an error, upon which nothing is written (R55). -/

namespace Sys2Proof.Machine

/-- The response of a frame that R160's checks turn away: FOREIGN (R161, R204), or
UNRECOGNIZED with the identifier byte if there is one (R162 to R164, R173, R203). -/
def frameErr : FrameFault → Err
  | .foreign => ⟨.foreign, []⟩
  | .unrecognized none => ⟨.unrecognized, []⟩
  | .unrecognized (some id) => ⟨.unrecognized, [id.toNat]⟩

/-- R170: one program parameter. -/
def mergeProgParam (index lo hi : Byte) (m : Mirror) : Except Err (Mirror × Tag) := do
  let v ← nibDec lo hi
  return (m.setEditParam index.toNat v, .editParam index.toNat)

/-- R171: one sequencer step; the step is checked before the nibbles (R206). -/
def mergeSeqStep (step lo hi : Byte) (m : Mirror) : Except Err (Mirror × Tag) := do
  checkStep step.toNat
  let v ← nibDec lo hi
  return (m.setEditSeq step.toNat v, .seqStep step.toNat)

/-- R172: one main parameter; an index without a MAIN_ID entry is RANGE. -/
def mergeMainParam (index lo hi : Byte) (m : Mirror) : Except Err (Mirror × Tag) := do
  checkMainIndex index.toNat
  let v ← nibDec lo hi
  return (m.setMainParam index.toNat v, .mainParam index.toNat)

/-- R165: the params part of one cell; not its name, not the edit buffer (C3). The
packed payload is within MAX_SEQ_LEN (R6), so MSB.UNPACK does not refuse it. -/
def mergeProgramDump (bank program : Byte) (packed : List Byte) (m : Mirror) :
    Except Err (Mirror × Tag) := do
  checkBank bank.toNat
  return (m.setCellParams bank.toNat program.toNat (some (unpack packed)),
    .cellParams bank.toNat program.toNat)

/-- R166: the whole edit buffer. -/
def mergeEditDump (packed : List Byte) (m : Mirror) : Except Err (Mirror × Tag) :=
  .ok (m.setEditAll (unpack packed), .editAll)

/-- R167: one waveshape entry. -/
def mergeWaveDump (waveshape : Byte) (packed : List Byte) (m : Mirror) :
    Except Err (Mirror × Tag) :=
  .ok (m.setWave waveshape.toNat (some (pointsOfBytes (unpack packed))), .wave waveshape.toNat)

/-- R168: all main parameters, or none of them; bank and program stay (R25). -/
def mergeMainDump (nibbles : List Byte) (m : Mirror) : Except Err (Mirror × Tag) := do
  let vs ← nibDecAll nibbles
  return (m.setMainAll vs, .mainAll)

/-- R169: the name part of one cell; not its params. -/
def mergeNameDump (bank program : Byte) (name : List Byte) (m : Mirror) :
    Except Err (Mirror × Tag) := do
  checkBank bank.toNat
  return (m.setCellName bank.toNat program.toNat (some (strDec name)),
    .cellName bank.toNat program.toNat)

/-- R160's `case id of`, on a payload that passed the checks, its fields from R74. -/
def mergeBody (id : Byte) (p : List Byte) (m : Mirror) : Except Err (Mirror × Tag) :=
  if id = 0x01 then mergeProgParam (payloadByte p 0) (payloadByte p 1) (payloadByte p 2) m
  else if id = 0x02 then mergeProgramDump (payloadByte p 0) (payloadByte p 1) (p.drop 2) m
  else if id = 0x03 then mergeEditDump p m
  else if id = 0x08 then mergeSeqStep (payloadByte p 0) (payloadByte p 1) (payloadByte p 2) m
  else if id = 0x09 then mergeMainParam (payloadByte p 0) (payloadByte p 1) (payloadByte p 2) m
  else if id = 0x0A then mergeWaveDump (payloadByte p 0) (p.drop 1) m
  else if id = 0x0F then mergeMainDump p m
  else if id = 0x11 then mergeNameDump (payloadByte p 0) (payloadByte p 1) (p.drop 2) m
  else .error (frameErr (.unrecognized (some id)))

/-- The checks of R163, R164 and R173 on a frame of the given identifier and payload,
then its merge. -/
def mergeChecked (id : Byte) (p : List Byte) (x : Except Err (Mirror × Tag)) :
    Except Err (Mirror × Tag) :=
  match bodyCheck id p with
  | .ok _ => x
  | .error e => .error (frameErr e)

/-- PARSE (R160): the acceptance checks in order, then the rule of the identifier. -/
def execParse (f : List Byte) (s : State) : Out :=
  finishParse (match frameCheck s.config.sysid f with
    | .ok (id, p) => mergeBody id p s.mirror
    | .error e => .error (frameErr e)) s

/-- PARSE of a program single-parameter update (R170). -/
def execParseProgParam (index lo hi : Byte) (s : State) : Out :=
  finishParse (mergeChecked 0x01 [index, lo, hi] (mergeProgParam index lo hi s.mirror)) s

/-- PARSE of a program dump (R165). -/
def execParseProgramDump (bank program : Byte) (packed : List Byte) (s : State) : Out :=
  finishParse (mergeChecked 0x02 (bank :: program :: packed)
    (mergeProgramDump bank program packed s.mirror)) s

/-- PARSE of an edit-buffer dump (R166). -/
def execParseEditDump (packed : List Byte) (s : State) : Out :=
  finishParse (mergeChecked 0x03 packed (mergeEditDump packed s.mirror)) s

/-- PARSE of a sequencer single-step update (R171). -/
def execParseSeqStep (step lo hi : Byte) (s : State) : Out :=
  finishParse (mergeChecked 0x08 [step, lo, hi] (mergeSeqStep step lo hi s.mirror)) s

/-- PARSE of a main single-parameter update (R172). -/
def execParseMainParam (index lo hi : Byte) (s : State) : Out :=
  finishParse (mergeChecked 0x09 [index, lo, hi] (mergeMainParam index lo hi s.mirror)) s

/-- PARSE of a waveshape dump (R167). -/
def execParseWaveDump (waveshape : Byte) (packed : List Byte) (s : State) : Out :=
  finishParse (mergeChecked 0x0A (waveshape :: packed)
    (mergeWaveDump waveshape packed s.mirror)) s

/-- PARSE of a main dump (R168). -/
def execParseMainDump (nibbles : List Byte) (s : State) : Out :=
  finishParse (mergeChecked 0x0F nibbles (mergeMainDump nibbles s.mirror)) s

/-- PARSE of a name dump (R169). -/
def execParseNameDump (bank program : Byte) (name : List Byte) (s : State) : Out :=
  finishParse (mergeChecked 0x11 (bank :: program :: name)
    (mergeNameDump bank program name s.mirror)) s

end Sys2Proof.Machine
end

