-- ==== Sys2Proof/Machine/Dispatch.lean ====
section
/-! DEFINITION. One arm per operation of the opcode table. -/

namespace Sys2Proof.Machine

def exec (i : Instr) (s : State) : Host.Outcome State Fault Refusal :=
  match i with
  | .nibEnc v => Sys2Proof.Machine.execNibEnc v s
  | .nibDec lo hi => Sys2Proof.Machine.execNibDec lo hi s
  | .msbPack u => Sys2Proof.Machine.execMsbPack u s
  | .msbUnpack w => Sys2Proof.Machine.execMsbUnpack w s
  | .strEnc name => Sys2Proof.Machine.execStrEnc name s
  | .strDec b => Sys2Proof.Machine.execStrDec b s
  | .asmProgParam index value => Sys2Proof.Machine.execAsmProgParam index value s
  | .asmProgramDump bank program params seq => Sys2Proof.Machine.execAsmProgramDump bank program params seq s
  | .asmEditDump params seq => Sys2Proof.Machine.execAsmEditDump params seq s
  | .asmCtrlReset => Sys2Proof.Machine.execAsmCtrlReset s
  | .asmReqProgram bank program => Sys2Proof.Machine.execAsmReqProgram bank program s
  | .asmReqEdit => Sys2Proof.Machine.execAsmReqEdit s
  | .asmSeqStep step value => Sys2Proof.Machine.execAsmSeqStep step value s
  | .asmMainParam index value => Sys2Proof.Machine.execAsmMainParam index value s
  | .asmWaveDump waveshape pts => Sys2Proof.Machine.execAsmWaveDump waveshape pts s
  | .asmReqWave waveshape => Sys2Proof.Machine.execAsmReqWave waveshape s
  | .asmReqMain => Sys2Proof.Machine.execAsmReqMain s
  | .asmMainDump params => Sys2Proof.Machine.execAsmMainDump params s
  | .asmReqName bank program => Sys2Proof.Machine.execAsmReqName bank program s
  | .asmNameDump bank program name => Sys2Proof.Machine.execAsmNameDump bank program name s
  | .asmCtrlStartStop => Sys2Proof.Machine.execAsmCtrlStartStop s
  | .asmCtrlShiftOn => Sys2Proof.Machine.execAsmCtrlShiftOn s
  | .asmCtrlShiftOff => Sys2Proof.Machine.execAsmCtrlShiftOff s
  | .parse f => Sys2Proof.Machine.execParse f s
  | .parseProgParam index lo hi => Sys2Proof.Machine.execParseProgParam index lo hi s
  | .parseProgramDump bank program packed => Sys2Proof.Machine.execParseProgramDump bank program packed s
  | .parseEditDump packed => Sys2Proof.Machine.execParseEditDump packed s
  | .parseSeqStep step lo hi => Sys2Proof.Machine.execParseSeqStep step lo hi s
  | .parseMainParam index lo hi => Sys2Proof.Machine.execParseMainParam index lo hi s
  | .parseWaveDump waveshape packed => Sys2Proof.Machine.execParseWaveDump waveshape packed s
  | .parseMainDump nibbles => Sys2Proof.Machine.execParseMainDump nibbles s
  | .parseNameDump bank program name => Sys2Proof.Machine.execParseNameDump bank program name s

end Sys2Proof.Machine
end

