-- ==== Sys2Proof/Machine/Step.lean ====
section
/-! DEFINITION. One step of the machine: the next arrival takes effect, whole and alone
(20_memory.md R55, R56; 60_exceptions.md R212). -/

namespace Sys2Proof.Machine

/-- The request that the port holds is decoded and its operation run; a request the
interface does not define is REFUSED (R81, R84). -/
def doCommand (r : Request) (s : State) : Out :=
  match decode s.config.sysid r with
  | .ok i => exec i s
  | .error _ => refuseRequest s

/-- The oldest arrival leaves the list and takes effect. With no arrival nothing
happens: the block starts nothing by itself (R20, R64, R208; log 3). -/
def step (s : State) : Host.Outcome State Fault Refusal :=
  match s.arrivals with
  | [] => .next s
  | .command r :: rest => doCommand r { s with arrivals := rest }
  | .envWrite w :: rest => doEnvWrite w { s with arrivals := rest }

/-- `s` with a client presenting, as the very next arrival, the request that the opcode
table's word stands for (log 1, 13). Everything else is as in `s`. -/
def State.withFetchWord (s : State) (nbits w : Nat) : State :=
  { s with arrivals := .command (tableRequest s.config.sysid nbits w) :: s.arrivals }

end Sys2Proof.Machine
end

