-- ==== Sys2Proof/Safety.lean ====
section
/-! DEFINITION. What counts as a safe state and a safe step, in the terms the statements
use: the shape of R21, the environment's duty of R34, and the frame of R33. -/

namespace Sys2Proof.Machine

/-- The invariant of the machine: parameters as R6, R28 and R29 ask, mirror as R21 asks. -/
abbrev State.wf (s : State) : Prop := s.config.wf ∧ s.mirror.wf

/-- Every environment write still to come is one that R34 admits. -/
abbrev arrivalsLegal (l : List Event) : Prop :=
  ∀ e ∈ l, match e with
    | .command _ => True
    | .envWrite w => w.legal = true

/-! ### The region an effect tag names (the table of R30) -/

/-- The tag names `M.edit.param[i]`. -/
def Tag.namesEditParam (i : Nat) : Tag → Bool
  | .editParam j => i == j
  | .editAll => true
  | _ => false

/-- The tag names `M.edit.seq[step]`. -/
def Tag.namesEditSeq (step : Nat) : Tag → Bool
  | .seqStep j => step == j
  | .editAll => true
  | _ => false

/-- The tag names `M.main.param[i]`. -/
def Tag.namesMainParam (i : Nat) : Tag → Bool
  | .mainParam j => i == j
  | .mainAll => true
  | _ => false

/-- The tag names `M.cell[b][p].params`. -/
def Tag.namesCellParams (b p : Nat) : Tag → Bool
  | .cellParams b' p' => b == b' && p == p'
  | _ => false

/-- The tag names `M.cell[b][p].name`. -/
def Tag.namesCellName (b p : Nat) : Tag → Bool
  | .cellName b' p' => b == b' && p == p'
  | _ => false

/-- The tag names `M.wave[w]`. -/
def Tag.namesWave (w : Nat) : Tag → Bool
  | .wave w' => w == w'
  | _ => false

/-- Every element of the mirror that the tag does not name reads in `m'` as in `m`; the
current bank and program, which no tag names, are the same. -/
structure Mirror.SameOutside (tag : Tag) (m m' : Mirror) : Prop where
  editParam : ∀ i < 128, tag.namesEditParam i = false → m'.editParam i = m.editParam i
  editSeq : ∀ step < 64, tag.namesEditSeq step = false → m'.editSeq step = m.editSeq step
  mainParam : ∀ i < 16, tag.namesMainParam i = false → m'.mainParam i = m.mainParam i
  bank : m'.main.bank = m.main.bank
  program : m'.main.program = m.main.program
  cellParams : ∀ b < 4, ∀ p < 128, tag.namesCellParams b p = false →
    m'.cellParams b p = m.cellParams b p
  cellName : ∀ b < 4, ∀ p < 128, tag.namesCellName b p = false → m'.cellName b p = m.cellName b p
  wave : ∀ w < 128, tag.namesWave w = false → m'.wave w = m.wave w

/-- From `s` to `t` only the response and the region the tag names may differ (R33, R62). -/
structure State.OnlyWrites (tag : Tag) (s t : State) : Prop where
  config : t.config = s.config
  arrivals : t.arrivals = s.arrivals
  mirror : s.mirror.SameOutside tag t.mirror

end Sys2Proof.Machine

namespace Sys2Proof

/-! ### Kinds of operations -/

/-- PARSE and its eight rows: the operations that may write the mirror (R33). -/
def Instr.isParse : Instr → Bool
  | .parse _ => true
  | .parseProgParam _ _ _ => true
  | .parseProgramDump _ _ _ => true
  | .parseEditDump _ => true
  | .parseSeqStep _ _ _ => true
  | .parseMainParam _ _ _ => true
  | .parseWaveDump _ _ => true
  | .parseMainDump _ => true
  | .parseNameDump _ _ _ => true
  | _ => false

/-- The identifier byte of a PARSE row (R71), `none` for every other operation. -/
def Instr.inboundId : Instr → Option Byte
  | .parseProgParam _ _ _ => some 0x01
  | .parseProgramDump _ _ _ => some 0x02
  | .parseEditDump _ => some 0x03
  | .parseSeqStep _ _ _ => some 0x08
  | .parseMainParam _ _ _ => some 0x09
  | .parseWaveDump _ _ => some 0x0A
  | .parseMainDump _ => some 0x0F
  | .parseNameDump _ _ _ => some 0x11
  | _ => none

end Sys2Proof

namespace Sys2Proof.Machine

/-- The frame length of an assigned identifier (the last column of R74's table). -/
def tabledFrameLength (id : Byte) : Option Nat :=
  match id.toNat with
  | 0x01 => some 7
  | 0x02 => some 226
  | 0x03 => some 224
  | 0x04 => some 4
  | 0x05 => some 6
  | 0x06 => some 4
  | 0x08 => some 7
  | 0x09 => some 7
  | 0x0A => some 298
  | 0x0B => some 5
  | 0x0E => some 4
  | 0x0F => some 36
  | 0x10 => some 6
  | 0x11 => some 22
  | 0x12 => some 4
  | 0x13 => some 4
  | 0x14 => some 4
  | _ => none

/-- A canonical packed sequence (R110): every byte a wire byte, no lone flag byte at the
end, and in a short last group no flag bit without a data byte. -/
def packedCanonical (w : List Byte) : Prop :=
  allWire w = true ∧ w.length % 8 ≠ 1 ∧
    ∀ k, w.length % 8 ≠ 0 → w.length % 8 - 1 ≤ k →
      (w.getD (8 * (w.length / 8)) 0).getLsbD k = false

end Sys2Proof.Machine
end

