-- ==== Sys2Proof/Certificates/Slice0/Obligations.lean ====
section
/-! DEFINITION. The statements about the machine, each with the rule of spec/ it
formalises. In all of them a response `⟨status, info, result, tag⟩` is R30's; that it
stands in a field of the state is the model's choice (log 2). -/

open Sys2Proof Sys2Proof.Machine

/-! ### Codecs -/

/-- R100: NIB.ENC, command word 0x000, answers (v[3:0], v[7:4]), always OK. -/
def Obligations.NibEncSplitsByteIntoNibbles : Prop :=
  ∀ (v : Byte) (s : State),
    decode s.config.sysid ⟨0x000, [.byte v]⟩ = .ok (.nibEnc v) ∧
    ∃ lo hi : Byte, lo.toNat = v.toNat % 16 ∧ hi.toNat = v.toNat / 16 ∧
      exec (.nibEnc v) s = .next { s with response := some ⟨.ok, [], .pair lo hi, .none⟩ }

/-- R101: NIB.DEC, command word 0x100, answers `lo | (hi << 4)` if both are below 16,
and RANGE(lo, hi) otherwise. -/
def Obligations.NibDecJoinsNibblesOrAnswersRange : Prop :=
  ∀ (lo hi : Byte) (s : State),
    decode s.config.sysid ⟨0x100, [.byte lo, .byte hi]⟩ = .ok (.nibDec lo hi) ∧
    (lo.toNat < 16 ∧ hi.toNat < 16 →
      ∃ v : Byte, v.toNat = lo.toNat + 16 * hi.toNat ∧
        exec (.nibDec lo hi) s = .next { s with response := some ⟨.ok, [], .byte v, .none⟩ }) ∧
    (16 ≤ lo.toNat ∨ 16 ≤ hi.toNat →
      exec (.nibDec lo hi) s =
        .next { s with response := some ⟨.range, [lo.toNat, hi.toNat], .none, .none⟩ })

/-- 40_codecs.md section 1, the two nibble laws (the spec derives them from R100 and R101). -/
def Obligations.NibbleCodecRoundTrips : Prop :=
  ∀ s : State,
    (∀ v : Byte, ∃ lo hi : Byte,
      exec (.nibEnc v) s = .next { s with response := some ⟨.ok, [], .pair lo hi, .none⟩ } ∧
      exec (.nibDec lo hi) s = .next { s with response := some ⟨.ok, [], .byte v, .none⟩ }) ∧
    (∀ lo hi : Byte, lo.toNat < 16 → hi.toNat < 16 → ∃ v : Byte,
      exec (.nibDec lo hi) s = .next { s with response := some ⟨.ok, [], .byte v, .none⟩ } ∧
      exec (.nibEnc v) s = .next { s with response := some ⟨.ok, [], .pair lo hi, .none⟩ })

/-- R52 and R106: each group of up to 7 bytes is led by a flag byte whose bit k is bit 7
of the group's byte k, the bytes follow with bit 7 clear, and the length is
`len + ceil(len / 7)`. -/
def Obligations.MsbPackLeadsEachGroupWithItsTopBits : Prop :=
  ∀ (u : List Byte) (s : State), u.length ≤ s.config.maxSeqLen →
    decode s.config.sysid ⟨0x200, [.bytes u]⟩ = .ok (.msbPack u) ∧
    ∃ w : List Byte,
      exec (.msbPack u) s = .next { s with response := some ⟨.ok, [], .bytes w, .none⟩ } ∧
      w.length = u.length + (u.length + 6) / 7 ∧
      ∀ g k : Nat, k < 7 → 7 * g + k < u.length →
        (w.getD (8 * g) 0).getLsbD k = (u.getD (7 * g + k) 0).getLsbD 7 ∧
        w.getD (8 * g + 1 + k) 0 = u.getD (7 * g + k) 0 &&& 0x7F

/-- The spec's own choices D1 and D2 (92_eei_decisions.md; log 16): the empty sequence
packs to nothing, a flag bit without a data byte is 0, so every packed byte is 7-bit. -/
def Obligations.MsbPackLeavesUnusedFlagBitsClear : Prop :=
  ∀ (u : List Byte) (s : State), u.length ≤ s.config.maxSeqLen →
    ∃ w : List Byte,
      exec (.msbPack u) s = .next { s with response := some ⟨.ok, [], .bytes w, .none⟩ } ∧
      (u = [] → w = []) ∧ (∀ b ∈ w, b.toNat < 128) ∧
      ∀ g k : Nat, 7 * g < u.length → u.length ≤ 7 * g + k →
        (w.getD (8 * g) 0).getLsbD k = false

/-- 40_codecs.md section 2: MSB.UNPACK, command word 0x300 (D6), restores the top bit of
data byte k of a group from flag bit k (`byte | 0x80` if set, the byte unchanged if not),
never fails on content, and refuses only an operand longer than MAX_SEQ_LEN (the spec's
own choice D29; that REFUSED carries the empty info is the model's choice, log 10). -/
def Obligations.MsbUnpackRestoresTopBits : Prop :=
  ∀ (w : List Byte) (s : State),
    decode s.config.sysid ⟨0x300, [.bytes w]⟩ = .ok (.msbUnpack w) ∧
    (s.config.maxSeqLen < w.length →
      exec (.msbUnpack w) s = .next { s with response := some ⟨.refused, [], .none, .none⟩ }) ∧
    (w.length ≤ s.config.maxSeqLen → ∃ u : List Byte,
      exec (.msbUnpack w) s = .next { s with response := some ⟨.ok, [], .bytes u, .none⟩ } ∧
      u.length = 7 * (w.length / 8) + (w.length % 8 - 1) ∧
      ∀ g k : Nat, k < 7 → 8 * g + 1 + k < w.length →
        u.getD (7 * g + k) 0 =
          if (w.getD (8 * g) 0).getLsbD k then w.getD (8 * g + 1 + k) 0 ||| 0x80
          else w.getD (8 * g + 1 + k) 0)

/-- 40_codecs.md section 2, the first MS-bit law (derived by the spec from R104, R105 and
R107): unpacking a packed sequence gives it back, for every length that fits. -/
def Obligations.MsbUnpackInvertsPack : Prop :=
  ∀ (u : List Byte) (s : State), u.length + (u.length + 6) / 7 ≤ s.config.maxSeqLen →
    ∃ w : List Byte,
      exec (.msbPack u) s = .next { s with response := some ⟨.ok, [], .bytes w, .none⟩ } ∧
      exec (.msbUnpack w) s = .next { s with response := some ⟨.ok, [], .bytes u, .none⟩ }

/-- 40_codecs.md section 2, the converse MS-bit law (derived by the spec), for canonical
packed sequences. -/
def Obligations.MsbPackInvertsUnpackOnCanonical : Prop :=
  ∀ (w : List Byte) (s : State), w.length ≤ s.config.maxSeqLen → packedCanonical w →
    ∃ u : List Byte,
      exec (.msbUnpack w) s = .next { s with response := some ⟨.ok, [], .bytes u, .none⟩ } ∧
      exec (.msbPack u) s = .next { s with response := some ⟨.ok, [], .bytes w, .none⟩ }

/-- R77: an encoded name is exactly 16 bytes, each the ASCII code of one character,
right-padded with 0x20. -/
def Obligations.StrEncPadsNameToSixteenBytes : Prop :=
  ∀ (name : List Nat) (s : State), name.length ≤ 16 → (∀ c ∈ name, c ≤ 127) →
    decode s.config.sysid ⟨0x400, [.codes name]⟩ = .ok (.strEnc name) ∧
    ∃ b : List Byte,
      exec (.strEnc name) s = .next { s with response := some ⟨.ok, [], .bytes b, .none⟩ } ∧
      b.length = 16 ∧
      (∀ i, i < name.length → (b.getD i 0).toNat = name.getD i 0) ∧
      ∀ i, name.length ≤ i → i < 16 → b.getD i 0 = 0x20

/-- R202: OVERFLOW with the name's length for a name of more than 16 characters, whatever
its characters, from STR.ENC and from ASM.NAME_DUMP. -/
def Obligations.LongNamesAnswerOverflow : Prop :=
  ∀ (name : List Nat) (bank program : Nat) (s : State), 16 < name.length →
    bank < 4 → program < 128 →
    exec (.strEnc name) s =
      .next { s with response := some ⟨.overflow, [name.length], .none, .none⟩ } ∧
    exec (.asmNameDump bank program name) s =
      .next { s with response := some ⟨.overflow, [name.length], .none, .none⟩ }

/-- The spec's own choice D20 (92_eei_decisions.md; log 17): RANGE with the first character
code above 127 in a name that is not too long. -/
def Obligations.NonAsciiNamesAnswerRange : Prop :=
  ∀ (before after : List Nat) (c : Nat) (s : State),
    (before ++ c :: after).length ≤ 16 → (∀ d ∈ before, d ≤ 127) → 127 < c →
    exec (.strEnc (before ++ c :: after)) s =
      .next { s with response := some ⟨.range, [c], .none, .none⟩ }

/-- 40_codecs.md section 3: STR.DEC, command word 0x500 (D6), keeps each byte in 32..126
and replaces every other by 0x20; an operand of another length than 16 is REFUSED (the
spec's own choice D28; that REFUSED carries the empty info is the model's choice, log 10). -/
def Obligations.StrDecReplacesUnprintableBytes : Prop :=
  ∀ (b : List Byte) (s : State),
    decode s.config.sysid ⟨0x500, [.bytes b]⟩ = .ok (.strDec b) ∧
    (b.length ≠ 16 →
      exec (.strDec b) s = .next { s with response := some ⟨.refused, [], .none, .none⟩ }) ∧
    (b.length = 16 → ∃ n : List Byte,
      exec (.strDec b) s = .next { s with response := some ⟨.ok, [], .bytes n, .none⟩ } ∧
      n.length = 16 ∧
      ∀ i, i < 16 → n.getD i 0 =
        if 32 ≤ (b.getD i 0).toNat ∧ (b.getD i 0).toNat ≤ 126 then b.getD i 0 else 0x20)

/-- 40_codecs.md section 3, the string law for printable names (derived by the spec; C2
restricts it to 32..126). -/
def Obligations.PrintableNamesRoundTrip : Prop :=
  ∀ (name : List Nat) (s : State), name.length ≤ 16 → (∀ c ∈ name, 32 ≤ c ∧ c ≤ 126) →
    ∃ b : List Byte,
      exec (.strEnc name) s = .next { s with response := some ⟨.ok, [], .bytes b, .none⟩ } ∧
      exec (.strDec b) s = .next { s with response := some ⟨.ok, [], .bytes b, .none⟩ }

/-- R84 as 92_eei_decisions.md D6, D28 and D29 decide it, and by the model's reading for
the fixed-length operands of ASM (log 9): a codec or ASM operand of the wrong shape is
REFUSED before anything else. That REFUSED carries the empty info is the model's choice
(log 10). -/
def Obligations.WrongOperandShapesAreRefused : Prop :=
  ∀ (i : Instr) (s : State), i.inboundId = none → i.wf s.config = false →
    exec i s = .next { s with response := some ⟨.refused, [], .none, .none⟩ }

/-! ### Assembler -/

/-- R141, R142, R143: the single-parameter updates' frames, command words 0x601, 0x608 and
0x609, low nibble first, or RANGE for an index outside 0..127, 0..63, 0..15. -/
def Obligations.AsmUpdatesBuildTheirFrames : Prop :=
  ∀ (index : Nat) (value : Byte) (s : State),
    (decode s.config.sysid ⟨0x601, [.addr index, .byte value]⟩ = .ok (.asmProgParam index value) ∧
      decode s.config.sysid ⟨0x608, [.addr index, .byte value]⟩ = .ok (.asmSeqStep index value) ∧
      decode s.config.sysid ⟨0x609, [.addr index, .byte value]⟩ =
        .ok (.asmMainParam index value)) ∧
    (∃ lo hi : Byte, lo.toNat = value.toNat % 16 ∧ hi.toNat = value.toNat / 16 ∧
      (index < 128 → exec (.asmProgParam index value) s =
        .next { s with response := some ⟨.ok, [],
          .frame (s.config.sysid ++ [0x01, BitVec.ofNat 8 index, lo, hi]), .none⟩ }) ∧
      (index < 64 → exec (.asmSeqStep index value) s =
        .next { s with response := some ⟨.ok, [],
          .frame (s.config.sysid ++ [0x08, BitVec.ofNat 8 index, lo, hi]), .none⟩ }) ∧
      (index < 16 → exec (.asmMainParam index value) s =
        .next { s with response := some ⟨.ok, [],
          .frame (s.config.sysid ++ [0x09, BitVec.ofNat 8 index, lo, hi]), .none⟩ })) ∧
    (128 ≤ index → exec (.asmProgParam index value) s =
      .next { s with response := some ⟨.range, [index], .none, .none⟩ }) ∧
    (64 ≤ index → exec (.asmSeqStep index value) s =
      .next { s with response := some ⟨.range, [index], .none, .none⟩ }) ∧
    (16 ≤ index → exec (.asmMainParam index value) s =
      .next { s with response := some ⟨.range, [index], .none, .none⟩ })

/-- R131, R132 and R54: a program dump (0x602) and an edit dump (0x603) carry MSB.PACK of
the parameters followed by the steps, 220 bytes; a program dump answers RANGE for a bank
of 4 or more, else for a program of 128 or more. -/
def Obligations.AsmSnapshotDumpsPackTheSnapshot : Prop :=
  ∀ (bank program : Nat) (params seq : List Byte) (s : State),
    s.config.wf → params.length = 128 → seq.length = 64 →
    decode s.config.sysid ⟨0x602, [.addr bank, .addr program, .bytes params, .bytes seq]⟩ =
      .ok (.asmProgramDump bank program params seq) ∧
    decode s.config.sysid ⟨0x603, [.bytes params, .bytes seq]⟩ = .ok (.asmEditDump params seq) ∧
    (∃ w : List Byte, w.length = 220 ∧
      exec (.msbPack (params ++ seq)) s =
        .next { s with response := some ⟨.ok, [], .bytes w, .none⟩ } ∧
      exec (.asmEditDump params seq) s = .next { s with response := some ⟨.ok, [],
        .frame (s.config.sysid ++ [0x03] ++ w), .none⟩ } ∧
      (bank < 4 → program < 128 → exec (.asmProgramDump bank program params seq) s =
        .next { s with response := some ⟨.ok, [], .frame (s.config.sysid ++
          [0x02, BitVec.ofNat 8 bank, BitVec.ofNat 8 program] ++ w), .none⟩ })) ∧
    (4 ≤ bank → exec (.asmProgramDump bank program params seq) s =
      .next { s with response := some ⟨.range, [bank], .none, .none⟩ }) ∧
    (bank < 4 → 128 ≤ program → exec (.asmProgramDump bank program params seq) s =
      .next { s with response := some ⟨.range, [program], .none, .none⟩ })

/-- R133: a waveshape dump (0x60A) carries MSB.PACK of the points' bytes, low byte first,
293 bytes, or answers RANGE for a waveshape of 128 or more. -/
def Obligations.AsmWaveDumpPacksPointsLowByteFirst : Prop :=
  ∀ (waveshape : Nat) (pts : List Point) (s : State), s.config.wf → pts.length = 128 →
    decode s.config.sysid ⟨0x60A, [.addr waveshape, .points pts]⟩ =
      .ok (.asmWaveDump waveshape pts) ∧
    (waveshape < 128 → ∃ u w : List Byte, u.length = 256 ∧ w.length = 293 ∧
      (∀ i, i < 128 →
        (u.getD (2 * i) 0).toNat = (pts.getD i 0).toNat % 256 ∧
        (u.getD (2 * i + 1) 0).toNat = (pts.getD i 0).toNat / 256) ∧
      exec (.msbPack u) s = .next { s with response := some ⟨.ok, [], .bytes w, .none⟩ } ∧
      exec (.asmWaveDump waveshape pts) s = .next { s with response := some ⟨.ok, [],
        .frame (s.config.sysid ++ [0x0A, BitVec.ofNat 8 waveshape] ++ w), .none⟩ }) ∧
    (128 ≤ waveshape → exec (.asmWaveDump waveshape pts) s =
      .next { s with response := some ⟨.range, [waveshape], .none, .none⟩ })

/-- R134: a main dump (0x60F) carries the 16 parameters as nibble pairs, low nibble first;
always OK. -/
def Obligations.AsmMainDumpNibbleEncodesParameters : Prop :=
  ∀ (params : List Byte) (s : State), params.length = 16 →
    decode s.config.sysid ⟨0x60F, [.bytes params]⟩ = .ok (.asmMainDump params) ∧
    ∃ p : List Byte, p.length = 32 ∧
      (∀ i, i < 16 →
        (p.getD (2 * i) 0).toNat = (params.getD i 0).toNat % 16 ∧
        (p.getD (2 * i + 1) 0).toNat = (params.getD i 0).toNat / 16) ∧
      exec (.asmMainDump params) s = .next { s with response := some ⟨.ok, [],
        .frame (s.config.sysid ++ [0x0F] ++ p), .none⟩ }

/-- R135: a name dump (0x611) carries STR.ENC of the name; RANGE for a bank of 4 or more,
else for a program of 128 or more, else STR.ENC's own error. -/
def Obligations.AsmNameDumpCarriesTheEncodedName : Prop :=
  ∀ (bank program : Nat) (name : List Nat) (s : State),
    decode s.config.sysid ⟨0x611, [.addr bank, .addr program, .codes name]⟩ =
      .ok (.asmNameDump bank program name) ∧
    (bank < 4 → program < 128 → name.length ≤ 16 → (∀ c ∈ name, c ≤ 127) →
      ∃ b : List Byte, b.length = 16 ∧
        exec (.strEnc name) s = .next { s with response := some ⟨.ok, [], .bytes b, .none⟩ } ∧
        exec (.asmNameDump bank program name) s = .next { s with response := some ⟨.ok, [],
          .frame (s.config.sysid ++ [0x11, BitVec.ofNat 8 bank, BitVec.ofNat 8 program] ++ b),
          .none⟩ }) ∧
    (bank < 4 → program < 128 → (16 < name.length ∨ ∃ c ∈ name, 127 < c) →
      exec (.asmNameDump bank program name) s = exec (.strEnc name) s) ∧
    (4 ≤ bank → exec (.asmNameDump bank program name) s =
      .next { s with response := some ⟨.range, [bank], .none, .none⟩ }) ∧
    (bank < 4 → 128 ≤ program → exec (.asmNameDump bank program name) s =
      .next { s with response := some ⟨.range, [program], .none, .none⟩ })

/-- 41_assembler.md section 3, the requests' frames with the addressing bytes of the spec's
own choice D22 (log 17), and RANGE for an address outside its range. -/
def Obligations.AsmRequestsCarryTheirAddresses : Prop :=
  ∀ (bank program waveshape : Nat) (s : State),
    (bank < 4 → program < 128 →
      exec (.asmReqProgram bank program) s = .next { s with response := some ⟨.ok, [],
        .frame (s.config.sysid ++ [0x05, BitVec.ofNat 8 bank, BitVec.ofNat 8 program]), .none⟩ } ∧
      exec (.asmReqName bank program) s = .next { s with response := some ⟨.ok, [],
        .frame (s.config.sysid ++ [0x10, BitVec.ofNat 8 bank, BitVec.ofNat 8 program]),
        .none⟩ }) ∧
    (waveshape < 128 →
      exec (.asmReqWave waveshape) s = .next { s with response := some ⟨.ok, [],
        .frame (s.config.sysid ++ [0x0B, BitVec.ofNat 8 waveshape]), .none⟩ }) ∧
    exec .asmReqEdit s =
      .next { s with response := some ⟨.ok, [], .frame (s.config.sysid ++ [0x06]), .none⟩ } ∧
    exec .asmReqMain s =
      .next { s with response := some ⟨.ok, [], .frame (s.config.sysid ++ [0x0E]), .none⟩ } ∧
    (4 ≤ bank →
      exec (.asmReqProgram bank program) s =
        .next { s with response := some ⟨.range, [bank], .none, .none⟩ } ∧
      exec (.asmReqName bank program) s =
        .next { s with response := some ⟨.range, [bank], .none, .none⟩ }) ∧
    (bank < 4 → 128 ≤ program →
      exec (.asmReqProgram bank program) s =
        .next { s with response := some ⟨.range, [program], .none, .none⟩ } ∧
      exec (.asmReqName bank program) s =
        .next { s with response := some ⟨.range, [program], .none, .none⟩ }) ∧
    (128 ≤ waveshape → exec (.asmReqWave waveshape) s =
      .next { s with response := some ⟨.range, [waveshape], .none, .none⟩ })

/-- 41_assembler.md section 5, the control commands' frames, paired with identifiers by the
spec's own choice D21 (log 17). -/
def Obligations.AsmControlsAreIdentifierOnlyFrames : Prop :=
  ∀ s : State,
    exec .asmCtrlReset s =
      .next { s with response := some ⟨.ok, [], .frame (s.config.sysid ++ [0x04]), .none⟩ } ∧
    exec .asmCtrlStartStop s =
      .next { s with response := some ⟨.ok, [], .frame (s.config.sysid ++ [0x12]), .none⟩ } ∧
    exec .asmCtrlShiftOn s =
      .next { s with response := some ⟨.ok, [], .frame (s.config.sysid ++ [0x13]), .none⟩ } ∧
    exec .asmCtrlShiftOff s =
      .next { s with response := some ⟨.ok, [], .frame (s.config.sysid ++ [0x14]), .none⟩ }

/-- 30_encoding.md section 1 and 20_memory.md section 1 (the spec derives the 7-bit claim
from the assembler's rules): every frame any operation answers starts with SYSID, goes on
with the kind of its command word, has the length tabled for that identifier, and holds
7-bit bytes only. -/
def Obligations.AssembledFramesKeepTheWireFormat : Prop :=
  ∀ (i : Instr) (s t : State) (info : List Nat) (f : List Byte) (tag : Tag),
    s.config.wf → exec i s = .next t → t.response = some ⟨.ok, info, .frame f, tag⟩ →
    f.take 3 = s.config.sysid ∧ f.getD 3 0 = kindField (encode s.config.sysid i).cmd ∧
      tabledFrameLength (f.getD 3 0) = some f.length ∧ ∀ b ∈ f, b.toNat < 128

/-! ### Parser: frames turned away -/

/-- R164 and R173: an identifier outside the eight inbound kinds, or a payload whose length
is not its kind's, is UNRECOGNIZED (with the identifier as info) and changes nothing. -/
def Obligations.ParseTurnsAwayUnknownKindsAndLengths : Prop :=
  ∀ (id : Byte) (p : List Byte) (s : State), s.config.sysid.length = 3 →
    (id ∉ ([0x01, 0x02, 0x03, 0x08, 0x09, 0x0A, 0x0F, 0x11] : List Byte) →
      exec (.parse (s.config.sysid ++ id :: p)) s =
        .next { s with response := some ⟨.unrecognized, [id.toNat], .none, .none⟩ }) ∧
    ∀ n, (id, n) ∈ ([(0x01, 3), (0x02, 222), (0x03, 220), (0x08, 3), (0x09, 3), (0x0A, 294),
        (0x0F, 32), (0x11, 18)] : List (Byte × Nat)) → p.length ≠ n →
      exec (.parse (s.config.sysid ++ id :: p)) s =
        .next { s with response := some ⟨.unrecognized, [id.toNat], .none, .none⟩ }

/-- 42_parser.md section 1, by the spec's own choices D11, D12, D15 and D16 (log 17), the
empty info of FOREIGN being the model's (log 10): a frame without the prefix is FOREIGN,
the bare prefix and a byte of 0x80 or more after it are UNRECOGNIZED; nothing changes. -/
def Obligations.ParseTurnsAwayForeignAndUncleanFrames : Prop :=
  ∀ (f : List Byte) (s : State), s.config.sysid.length = 3 →
    (f.length < 3 ∨ f.take 3 ≠ s.config.sysid →
      exec (.parse f) s = .next { s with response := some ⟨.foreign, [], .none, .none⟩ }) ∧
    (f = s.config.sysid →
      exec (.parse f) s = .next { s with response := some ⟨.unrecognized, [], .none, .none⟩ }) ∧
    ∀ (id : Byte) (p : List Byte), f = s.config.sysid ++ id :: p →
      (∃ b ∈ id :: p, 128 ≤ b.toNat) →
      exec (.parse f) s =
        .next { s with response := some ⟨.unrecognized, [id.toNat], .none, .none⟩ }

/-- The model's choice (log 11) for command word 0x700: whichever row of the table a frame
decodes to, running that row is running PARSE on the frame. -/
def Obligations.ParseRowsAgreeWithParse : Prop :=
  ∀ (f : List Byte) (i : Instr) (s : State),
    decode s.config.sysid ⟨0x700, [.bytes f]⟩ = .ok i → exec i s = exec (.parse f) s

/-- The model's choice (log 12): a PARSE row whose payload no accepted frame has answers
what PARSE of that frame answers, UNRECOGNIZED with its identifier. -/
def Obligations.ParseRowsTurnAwayIllFormedPayloads : Prop :=
  ∀ (i : Instr) (id : Byte) (s : State), i.inboundId = some id → i.wf s.config = false →
    exec i s = .next { s with response := some ⟨.unrecognized, [id.toNat], .none, .none⟩ }

/-! ### Parser: frames merged -/

/-- 42_parser.md section 3, program update: one edit-buffer parameter and nothing else;
RANGE for a nibble of 16 or more. That the info of this RANGE is both nibbles, as
NIB.DEC's own `RANGE(lo, hi)` has it (40_codecs.md section 1), is the model's choice
(log 10). -/
def Obligations.ParseProgParamSetsOneParameter : Prop :=
  ∀ (index lo hi : Byte) (s : State) (i : Instr), s.wf →
    index.toNat < 128 → lo.toNat < 128 → hi.toNat < 128 →
    (i = .parseProgParam index lo hi ∨ i = .parse (s.config.sysid ++ [0x01, index, lo, hi])) →
    (lo.toNat < 16 ∧ hi.toNat < 16 → ∃ t : State, exec i s = .next t ∧
      (t.mirror.editParam index.toNat).toNat = lo.toNat + 16 * hi.toNat ∧
      t.response = some ⟨.ok, [], .none, .editParam index.toNat⟩ ∧
      State.OnlyWrites (.editParam index.toNat) s t) ∧
    (16 ≤ lo.toNat ∨ 16 ≤ hi.toNat → exec i s =
      .next { s with response := some ⟨.range, [lo.toNat, hi.toNat], .none, .none⟩ })

/-- 42_parser.md section 3, sequencer update: one step and nothing else; RANGE for a step
of 64 or more (the spec's own choice D13, log 17), else for a nibble of 16 or more, whose
info is both nibbles (the model's choice, log 10). -/
def Obligations.ParseSeqStepSetsOneStep : Prop :=
  ∀ (step lo hi : Byte) (s : State) (i : Instr), s.wf →
    step.toNat < 128 → lo.toNat < 128 → hi.toNat < 128 →
    (i = .parseSeqStep step lo hi ∨ i = .parse (s.config.sysid ++ [0x08, step, lo, hi])) →
    (step.toNat < 64 → lo.toNat < 16 ∧ hi.toNat < 16 → ∃ t : State, exec i s = .next t ∧
      (t.mirror.editSeq step.toNat).toNat = lo.toNat + 16 * hi.toNat ∧
      t.response = some ⟨.ok, [], .none, .seqStep step.toNat⟩ ∧
      State.OnlyWrites (.seqStep step.toNat) s t) ∧
    (64 ≤ step.toNat → exec i s =
      .next { s with response := some ⟨.range, [step.toNat], .none, .none⟩ }) ∧
    (step.toNat < 64 → 16 ≤ lo.toNat ∨ 16 ≤ hi.toNat → exec i s =
      .next { s with response := some ⟨.range, [lo.toNat, hi.toNat], .none, .none⟩ })

/-- 42_parser.md section 3, main update: one main parameter and nothing else; RANGE for an
index of 16 or more (the spec's own choice D13, log 17), else for a nibble of 16 or more,
whose info is both nibbles (the model's choice, log 10). -/
def Obligations.ParseMainParamSetsOneParameter : Prop :=
  ∀ (index lo hi : Byte) (s : State) (i : Instr), s.wf →
    index.toNat < 128 → lo.toNat < 128 → hi.toNat < 128 →
    (i = .parseMainParam index lo hi ∨ i = .parse (s.config.sysid ++ [0x09, index, lo, hi])) →
    (index.toNat < 16 → lo.toNat < 16 ∧ hi.toNat < 16 → ∃ t : State, exec i s = .next t ∧
      (t.mirror.mainParam index.toNat).toNat = lo.toNat + 16 * hi.toNat ∧
      t.response = some ⟨.ok, [], .none, .mainParam index.toNat⟩ ∧
      State.OnlyWrites (.mainParam index.toNat) s t) ∧
    (16 ≤ index.toNat → exec i s =
      .next { s with response := some ⟨.range, [index.toNat], .none, .none⟩ }) ∧
    (index.toNat < 16 → 16 ≤ lo.toNat ∨ 16 ≤ hi.toNat → exec i s =
      .next { s with response := some ⟨.range, [lo.toNat, hi.toNat], .none, .none⟩ })

/-- 42_parser.md section 2, program dump: MSB.UNPACK of its 220 packed bytes becomes the
params part of one cell, and nothing else is written, the edit buffer and the cell's name
included (C3); RANGE for a bank of 4 or more (the spec's own choice D13, log 17). -/
def Obligations.ParseProgramDumpSetsCellParams : Prop :=
  ∀ (bank program : Byte) (packed : List Byte) (s : State) (i : Instr), s.wf →
    bank.toNat < 128 → program.toNat < 128 → (∀ b ∈ packed, b.toNat < 128) →
    packed.length = 220 →
    (i = .parseProgramDump bank program packed ∨
      i = .parse (s.config.sysid ++ [0x02, bank, program] ++ packed)) →
    (bank.toNat < 4 → ∃ (t : State) (u : List Byte), exec i s = .next t ∧
      exec (.msbUnpack packed) s = .next { s with response := some ⟨.ok, [], .bytes u, .none⟩ } ∧
      u.length = 192 ∧
      t.mirror.cellParams bank.toNat program.toNat = some u ∧
      t.response = some ⟨.ok, [], .none, .cellParams bank.toNat program.toNat⟩ ∧
      State.OnlyWrites (.cellParams bank.toNat program.toNat) s t) ∧
    (4 ≤ bank.toNat → exec i s =
      .next { s with response := some ⟨.range, [bank.toNat], .none, .none⟩ })

/-- R166: PARSE of an edit-buffer dump sets the 128 parameters and the 64 steps to
MSB.UNPACK of its 220 packed bytes, and nothing else. -/
def Obligations.ParseEditDumpReplacesTheEditBuffer : Prop :=
  ∀ (packed : List Byte) (s : State) (i : Instr), s.wf →
    (∀ b ∈ packed, b.toNat < 128) → packed.length = 220 →
    (i = .parseEditDump packed ∨ i = .parse (s.config.sysid ++ [0x03] ++ packed)) →
    ∃ (t : State) (u : List Byte), exec i s = .next t ∧
      exec (.msbUnpack packed) s = .next { s with response := some ⟨.ok, [], .bytes u, .none⟩ } ∧
      u.length = 192 ∧
      (∀ j, j < 128 → t.mirror.editParam j = u.getD j 0) ∧
      (∀ k, k < 64 → t.mirror.editSeq k = u.getD (128 + k) 0) ∧
      t.response = some ⟨.ok, [], .none, .editAll⟩ ∧
      State.OnlyWrites .editAll s t

/-- R167: PARSE of a waveshape dump sets one waveshape to the 128 points of MSB.UNPACK of
its 293 packed bytes, low byte first, and nothing else. -/
def Obligations.ParseWaveDumpSetsOneWaveshape : Prop :=
  ∀ (waveshape : Byte) (packed : List Byte) (s : State) (i : Instr), s.wf →
    waveshape.toNat < 128 → (∀ b ∈ packed, b.toNat < 128) → packed.length = 293 →
    (i = .parseWaveDump waveshape packed ∨
      i = .parse (s.config.sysid ++ [0x0A, waveshape] ++ packed)) →
    ∃ (t : State) (u : List Byte) (pts : List Point), exec i s = .next t ∧
      exec (.msbUnpack packed) s = .next { s with response := some ⟨.ok, [], .bytes u, .none⟩ } ∧
      u.length = 256 ∧ pts.length = 128 ∧
      (∀ j, j < 128 → (pts.getD j 0).toNat =
        (u.getD (2 * j) 0).toNat + 256 * (u.getD (2 * j + 1) 0).toNat) ∧
      t.mirror.wave waveshape.toNat = some pts ∧
      t.response = some ⟨.ok, [], .none, .wave waveshape.toNat⟩ ∧
      State.OnlyWrites (.wave waveshape.toNat) s t

/-- 42_parser.md section 2, main dump: 16 nibble pairs set the 16 main parameters and
nothing else, the current bank and program included (D18); a nibble of 16 or more in any
pair answers RANGE with the first bad pair (D12, the info log 10) and writes nothing, the
pairs before it included (the spec's own choice D14, log 17). -/
def Obligations.ParseMainDumpSetsAllOrNothing : Prop :=
  ∀ (nibbles : List Byte) (s : State) (i : Instr), s.wf →
    (∀ b ∈ nibbles, b.toNat < 128) → nibbles.length = 32 →
    (i = .parseMainDump nibbles ∨ i = .parse (s.config.sysid ++ [0x0F] ++ nibbles)) →
    ((∀ b ∈ nibbles, b.toNat < 16) → ∃ t : State, exec i s = .next t ∧
      (∀ j, j < 16 → (t.mirror.mainParam j).toNat =
        (nibbles.getD (2 * j) 0).toNat + 16 * (nibbles.getD (2 * j + 1) 0).toNat) ∧
      t.response = some ⟨.ok, [], .none, .mainAll⟩ ∧
      State.OnlyWrites .mainAll s t) ∧
    ∀ j, j < 16 → (∀ k, k < 2 * j → (nibbles.getD k 0).toNat < 16) →
      (16 ≤ (nibbles.getD (2 * j) 0).toNat ∨ 16 ≤ (nibbles.getD (2 * j + 1) 0).toNat) →
      exec i s = .next { s with response := some ⟨.range,
        [(nibbles.getD (2 * j) 0).toNat, (nibbles.getD (2 * j + 1) 0).toNat], .none, .none⟩ }

/-- 42_parser.md section 2, name dump: STR.DEC of its 16 bytes becomes the name part of one
cell, and nothing else is written, the cell's params included; RANGE for a bank of 4 or
more (the spec's own choice D13, log 17). -/
def Obligations.ParseNameDumpSetsCellName : Prop :=
  ∀ (bank program : Byte) (name : List Byte) (s : State) (i : Instr), s.wf →
    bank.toNat < 128 → program.toNat < 128 → (∀ b ∈ name, b.toNat < 128) → name.length = 16 →
    (i = .parseNameDump bank program name ∨
      i = .parse (s.config.sysid ++ [0x11, bank, program] ++ name)) →
    (bank.toNat < 4 → ∃ (t : State) (n : List Byte), exec i s = .next t ∧
      exec (.strDec name) s = .next { s with response := some ⟨.ok, [], .bytes n, .none⟩ } ∧
      t.mirror.cellName bank.toNat program.toNat = some n ∧
      t.response = some ⟨.ok, [], .none, .cellName bank.toNat program.toNat⟩ ∧
      State.OnlyWrites (.cellName bank.toNat program.toNat) s t) ∧
    (4 ≤ bank.toNat → exec i s =
      .next { s with response := some ⟨.range, [bank.toNat], .none, .none⟩ })

/-- 20_memory.md section 3 (the spec derives it): applying a frame a second time leaves the
whole state as the first application left it, for accepted and rejected frames alike. -/
def Obligations.ReapplyingAFrameChangesNothing : Prop :=
  ∀ (f : List Byte) (s t : State), exec (.parse f) s = .next t → exec (.parse f) t = .next t

/-! ### Assembler and parser agree (42_parser.md section 4, derived by the spec) -/

/-- PARSE of an assembled single-parameter update sets its one element to its value. -/
def Obligations.AssembledUpdatesParseBack : Prop :=
  ∀ (index : Nat) (value : Byte) (s t r : State) (f : List Byte),
    s.config.wf → r.wf → r.config = s.config →
    t.response = some ⟨.ok, [], .frame f, .none⟩ →
    (exec (.asmProgParam index value) s = .next t → ∃ r', exec (.parse f) r = .next r' ∧
      r'.response = some ⟨.ok, [], .none, .editParam index⟩ ∧
      r'.mirror.editParam index = value ∧ State.OnlyWrites (.editParam index) r r') ∧
    (exec (.asmSeqStep index value) s = .next t → ∃ r', exec (.parse f) r = .next r' ∧
      r'.response = some ⟨.ok, [], .none, .seqStep index⟩ ∧
      r'.mirror.editSeq index = value ∧ State.OnlyWrites (.seqStep index) r r') ∧
    (exec (.asmMainParam index value) s = .next t → ∃ r', exec (.parse f) r = .next r' ∧
      r'.response = some ⟨.ok, [], .none, .mainParam index⟩ ∧
      r'.mirror.mainParam index = value ∧ State.OnlyWrites (.mainParam index) r r')

/-- PARSE of an assembled program, edit or waveshape dump writes exactly the values the
dump was built from: packing, framing, acceptance and unpacking lose nothing. -/
def Obligations.AssembledPackedDumpsParseBack : Prop :=
  ∀ (bank program waveshape : Nat) (params seq : List Byte) (pts : List Point)
    (s t r : State) (f : List Byte),
    s.config.wf → r.wf → r.config = s.config →
    t.response = some ⟨.ok, [], .frame f, .none⟩ →
    (exec (.asmProgramDump bank program params seq) s = .next t →
      ∃ r', exec (.parse f) r = .next r' ∧
        r'.response = some ⟨.ok, [], .none, .cellParams bank program⟩ ∧
        r'.mirror.cellParams bank program = some (params ++ seq) ∧
        State.OnlyWrites (.cellParams bank program) r r') ∧
    (exec (.asmEditDump params seq) s = .next t → ∃ r', exec (.parse f) r = .next r' ∧
      r'.response = some ⟨.ok, [], .none, .editAll⟩ ∧
      r'.mirror.edit.param = params ∧ r'.mirror.edit.seq = seq ∧
      State.OnlyWrites .editAll r r') ∧
    (exec (.asmWaveDump waveshape pts) s = .next t → ∃ r', exec (.parse f) r = .next r' ∧
      r'.response = some ⟨.ok, [], .none, .wave waveshape⟩ ∧
      r'.mirror.wave waveshape = some pts ∧ State.OnlyWrites (.wave waveshape) r r')

/-- PARSE of an assembled main dump sets the main parameters to those it was built from,
and PARSE of an assembled name dump sets the cell's name to STR.DEC of STR.ENC. -/
def Obligations.AssembledMainAndNameDumpsParseBack : Prop :=
  ∀ (bank program : Nat) (params : List Byte) (name : List Nat) (s t r : State)
    (f : List Byte),
    s.config.wf → r.wf → r.config = s.config →
    t.response = some ⟨.ok, [], .frame f, .none⟩ →
    (exec (.asmMainDump params) s = .next t → ∃ r', exec (.parse f) r = .next r' ∧
      r'.response = some ⟨.ok, [], .none, .mainAll⟩ ∧
      r'.mirror.main.param = params ∧ State.OnlyWrites .mainAll r r') ∧
    (exec (.asmNameDump bank program name) s = .next t → ∃ (r' : State) (b n : List Byte),
      exec (.parse f) r = .next r' ∧
      exec (.strEnc name) s = .next { s with response := some ⟨.ok, [], .bytes b, .none⟩ } ∧
      exec (.strDec b) s = .next { s with response := some ⟨.ok, [], .bytes n, .none⟩ } ∧
      r'.response = some ⟨.ok, [], .none, .cellName bank program⟩ ∧
      r'.mirror.cellName bank program = some n ∧
      State.OnlyWrites (.cellName bank program) r r')

/-! ### Encoding -/

/-- 30_encoding.md sections 1 and 3, the command words being the spec's own choice D6:
decoding the request that encodes a well-formed operation gives the operation back, for
every operation but PARSE itself, whose accepted frames are the PARSE rows' (log 11). -/
def Obligations.DecodeInvertsEncode : Prop :=
  ∀ (c : Config) (i : Instr), c.wf → i.wf c = true → (∀ f, i ≠ .parse f) →
    decode c.sysid (encode c.sysid i) = .ok i

/-- 30_encoding.md sections 1 and 3 (D6): whatever request the decoder accepts, the
operation it reads encodes to exactly that request, so no bit of the command word, of an
operand or of a frame is dropped. -/
def Obligations.EncodeInvertsDecode : Prop :=
  ∀ (sysid : List Byte) (r : Request) (i : Instr), decode sysid r = .ok i → encode sysid i = r

/-- 30_encoding.md section 4 (D6): with any of the 4072 command words that the interface
does not define, every request is rejected, whatever its operands. -/
def Obligations.UndefinedCommandWordsAreRejected : Prop :=
  ∀ (sysid : List Byte) (cmd : CommandWord) (ops : List Operand),
    cmd ∉ ([0x000, 0x100, 0x200, 0x300, 0x400, 0x500, 0x601, 0x602, 0x603, 0x604, 0x605, 0x606,
      0x608, 0x609, 0x60A, 0x60B, 0x60E, 0x60F, 0x610, 0x611, 0x612, 0x613, 0x614, 0x700] :
      List CommandWord) →
    ∃ why, decode sysid ⟨cmd, ops⟩ = .error why

/-- 30_encoding.md sections 1 and 3, the command words being the spec's own choice D6:
requests written out from the tables, one or two of each family, decode to what they
stand for. That a frame under 0x700 decodes to its row if PARSE accepts it, and to PARSE
itself if not, is the model's choice (log 11). -/
def Obligations.WrittenOutRequestsDecode : Prop :=
  decode [0x01, 0x20, 0x01] ⟨0b000000000000, [.byte 0x13]⟩ = .ok (.nibEnc 0x13) ∧
  decode [0x01, 0x20, 0x01] ⟨0b001000000000, [.bytes [0xC0, 0xA0]]⟩ = .ok (.msbPack [0xC0, 0xA0]) ∧
  decode [0x01, 0x20, 0x01] ⟨0b011000001001, [.addr 0, .byte 19]⟩ = .ok (.asmMainParam 0 19) ∧
  decode [0x01, 0x20, 0x01] ⟨0b011000010100, []⟩ = .ok .asmCtrlShiftOff ∧
  decode [0x01, 0x20, 0x01] ⟨0b011100000000, [.bytes [0x01, 0x20, 0x01, 0x09, 0x00, 0x03, 0x01]]⟩ =
    .ok (.parseMainParam 0x00 0x03 0x01) ∧
  decode [0x01, 0x20, 0x01] ⟨0b011100000000, [.bytes [0x01, 0x20, 0x02, 0x09, 0x00, 0x03, 0x01]]⟩ =
    .ok (.parse [0x01, 0x20, 0x02, 0x09, 0x00, 0x03, 0x01])

/-! ### The machine as a whole -/

/-- Log 1: when the oldest arrival is a request that decodes to an operation, a step takes
that arrival and is exec of the operation, with nothing around it. -/
def Obligations.StepRunsTheDecodedOperation : Prop :=
  ∀ (s : State) (r : Request) (rest : List Event) (i : Instr),
    s.arrivals = .command r :: rest → decode s.config.sysid r = .ok i →
    step s = exec i { s with arrivals := rest }

/-- 30_encoding.md section 4 (D6): a request the interface does not define is answered
REFUSED, with no result, no tag and no mirror write. That operands of another number or
kind make such a request is the model's reading (log 8), and that REFUSED carries the
empty info is its choice (log 10). -/
def Obligations.StepRefusesUndefinedRequests : Prop :=
  ∀ (s : State) (r : Request) (rest : List Event) (why : Reject),
    s.arrivals = .command r :: rest → decode s.config.sysid r = .error why →
    step s =
      .next { s with arrivals := rest, response := some ⟨.refused, [], .none, .none⟩ }

/-- 60_exceptions.md section 4 (the spec derives it) and log 3: if the environment keeps to
its writes, every step answers a next state and takes exactly the oldest arrival. -/
def Obligations.StepAlwaysAnswersLawfulClients : Prop :=
  ∀ s : State, arrivalsLegal s.arrivals →
    ∃ t : State, step s = .next t ∧ t.arrivals = s.arrivals.tail ∧ arrivalsLegal t.arrivals

/-- The model's choice (log 14): the machine stops only on an environment write outside the
element types, and never refuses an operation. -/
def Obligations.StepStopsOnlyOnIllTypedEnvWrites : Prop :=
  ∀ s : State,
    (∀ r, step s ≠ .refused r) ∧
    ∀ r, step s = .fault r ↔
      r = .illTypedEnvWrite ∧ ∃ w rest, s.arrivals = .envWrite w :: rest ∧ w.legal = false

/-- 10_state.md section 5 (the environment agent; log 14): an environment write sets the one
element it names to its value, leaves every other element, and has no response. -/
def Obligations.EnvWritesSetTheirElement : Prop :=
  ∀ (s : State) (rest : List Event), s.mirror.wf →
    (∀ i v, i < 128 → s.arrivals = .envWrite (.editParam i v) :: rest → ∃ m : Mirror,
      step s = .next { s with arrivals := rest, mirror := m } ∧ m.editParam i = v ∧
      Mirror.SameOutside (.editParam i) s.mirror m) ∧
    (∀ i v, i < 64 → s.arrivals = .envWrite (.editSeq i v) :: rest → ∃ m : Mirror,
      step s = .next { s with arrivals := rest, mirror := m } ∧ m.editSeq i = v ∧
      Mirror.SameOutside (.seqStep i) s.mirror m) ∧
    (∀ b p v, b < 4 → p < 128 → paramsLegal v →
      s.arrivals = .envWrite (.cellParams b p v) :: rest → ∃ m : Mirror,
      step s = .next { s with arrivals := rest, mirror := m } ∧ m.cellParams b p = v ∧
      Mirror.SameOutside (.cellParams b p) s.mirror m) ∧
    (∀ b p v, b < 4 → p < 128 → nameLegal v →
      s.arrivals = .envWrite (.cellName b p v) :: rest → ∃ m : Mirror,
      step s = .next { s with arrivals := rest, mirror := m } ∧ m.cellName b p = v ∧
      Mirror.SameOutside (.cellName b p) s.mirror m) ∧
    (∀ v, s.arrivals = .envWrite (.bank v) :: rest →
      step s = .next { s with
        arrivals := rest
        mirror := { s.mirror with main := { s.mirror.main with bank := v } } }) ∧
    (∀ v, s.arrivals = .envWrite (.program v) :: rest →
      step s = .next { s with
        arrivals := rest
        mirror := { s.mirror with main := { s.mirror.main with program := v } } })

/-- R200: an operation that answers an error status leaves the state as it was before, but
for the response, which has no result and tag NONE. -/
def Obligations.ErrorsChangeNothing : Prop :=
  ∀ (i : Instr) (s t : State) (r : Response),
    exec i s = .next t → t.response = some r → r.status ≠ .ok →
    t = { s with response := some r } ∧ r.result = .none ∧ r.tag = .none

/-- R33: no operation but PARSE writes the mirror, and PARSE writes at most the region its
effect tag names. -/
def Obligations.OnlyParseWritesAndOnlyItsTag : Prop :=
  ∀ (i : Instr) (s t : State), exec i s = .next t →
    (i.isParse = false → t.mirror = s.mirror) ∧
    ∃ r, t.response = some r ∧ State.OnlyWrites r.tag s t

/-- R31 and R32: the codec and the assembler operations neither read nor write the mirror.
In two states that agree on the parameters they give the same response, and change nothing
else in either. -/
def Obligations.CodecsAndAssemblerIgnoreTheMirror : Prop :=
  ∀ (i : Instr) (s s' : State), i.isParse = false → s'.config = s.config →
    ∃ r, exec i s = .next { s with response := some r } ∧
      exec i s' = .next { s' with response := some r }

/-- 10_state.md section 5 (no hidden state; D4): what any operation answers and writes
depends on the mirror and the parameters alone, not on earlier responses nor on what the
clients will present. -/
def Obligations.OperationsReadOnlyMirrorAndParameters : Prop :=
  ∀ (i : Instr) (s s' : State), s'.mirror = s.mirror → s'.config = s.config →
    ∃ m r, exec i s = .next { s with mirror := m, response := some r } ∧
      exec i s' = .next { s' with mirror := m, response := some r }

/-- No operation makes a known cell part unknown (10_state.md section 2, "Never shrinks"),
nor a known waveshape: PARSE alone writes the mirror (10_state.md section 5), and a
waveshape dump writes known points (42_parser.md section 2). -/
def Obligations.KnownEntriesStayKnown : Prop :=
  ∀ (i : Instr) (s t : State), exec i s = .next t → ∀ b p w : Nat, b < 4 → p < 128 → w < 128 →
    (s.mirror.cellParams b p ≠ none → t.mirror.cellParams b p ≠ none) ∧
    (s.mirror.cellName b p ≠ none → t.mirror.cellName b p ≠ none) ∧
    (s.mirror.wave w ≠ none → t.mirror.wave w ≠ none)

/-- 10_state.md section 2 (D18): the current bank and program change only in a step that is
the environment's own write of them. -/
def Obligations.OnlyTheEnvironmentMovesBankAndProgram : Prop :=
  ∀ s t : State, step s = .next t →
    (t.mirror.main.bank ≠ s.mirror.main.bank →
      ∃ v rest, s.arrivals = .envWrite (.bank v) :: rest ∧ t.mirror.main.bank = v) ∧
    (t.mirror.main.program ≠ s.mirror.main.program →
      ∃ v rest, s.arrivals = .envWrite (.program v) :: rest ∧ t.mirror.main.program = v)

/-- 10_state.md section 3 and 70_reset_and_hazards.md section 2 (D5, D8): no step changes
SYSID, MAX_SEQ_LEN or the schema tables. -/
def Obligations.StepKeepsTheParameters : Prop :=
  ∀ s t : State, step s = .next t → t.config = s.config

/-- 40_codecs.md section 4 (D8): in a well-formed parameter set each schema table and its
inverse undo each other, and an index outside the table resolves to nothing. -/
def Obligations.SchemaLookupsAreInverse : Prop :=
  ∀ c : Config, c.wf →
    (∀ i, i < 128 → ∃ id, progIdOf c i = some id ∧ progIdxOf c id = some i) ∧
    (∀ id i, progIdxOf c id = some i → i < 128 ∧ progIdOf c i = some id) ∧
    (∀ i, 128 ≤ i → progIdOf c i = none) ∧
    (∀ i, i < 16 → ∃ id, mainIdOf c i = some id ∧ mainIdxOf c id = some i) ∧
    (∀ id i, mainIdxOf c id = some i → i < 16 ∧ mainIdOf c i = some id) ∧
    (∀ i, 16 ≤ i → mainIdOf c i = none)

/-! ### Invariant and reset -/

/-- 10_state.md sections 2 and 3: the shape of the mirror (every region its length, every
element a value of its type: 192-byte params, 16 printable name bytes, 128 points) and of
the parameters survives every step from every state that has it. -/
def Obligations.StepKeepsStateWellFormed : Prop :=
  ∀ s t : State, s.wf → step s = .next t → t.wf

/-- 10_state.md section 6: the reset state has that shape. -/
def Obligations.ResetStateIsWellFormed : Prop := State.reset.wf

/-- 10_state.md section 6: after reset every edit parameter, step and main parameter reads
0x00 (the spec's own choice D9, log 15), bank and program are unknown, and every cell part
and waveshape is unknown. -/
def Obligations.ResetLeavesTheMirrorEmpty : Prop :=
  (∀ i, i < 128 → State.reset.mirror.editParam i = 0) ∧
  (∀ step, step < 64 → State.reset.mirror.editSeq step = 0) ∧
  (∀ i, i < 16 → State.reset.mirror.mainParam i = 0) ∧
  State.reset.mirror.main.bank = none ∧ State.reset.mirror.main.program = none ∧
  (∀ b p, b < 4 → p < 128 → State.reset.mirror.cellParams b p = none ∧
    State.reset.mirror.cellName b p = none) ∧
  ∀ w, w < 128 → State.reset.mirror.wave w = none

/-- 10_state.md section 4 (D16): the statuses and their codes. -/
def Obligations.StatusesHaveTheirCodes : Prop :=
  [Status.ok, .range, .overflow, .unrecognized, .foreign, .refused].map Status.code =
      [0, 1, 2, 3, 4, 5] ∧
    ∀ a b : Status, a.code = b.code → a = b
end

