-- ==== Sys2Proof/Laws/State.lean ====
section
/-! SUPPORT. One lemma per field per update of the state and of the mirror, each by rfl,
so that no proof unfolds a record update. -/

namespace Sys2Proof.Machine

variable (s : State) (m : Mirror)

@[simp] theorem State.respond_mirror (r : Response) : (s.respond r).mirror = s.mirror := rfl
@[simp] theorem State.respond_config (r : Response) : (s.respond r).config = s.config := rfl
@[simp] theorem State.respond_arrivals (r : Response) : (s.respond r).arrivals = s.arrivals := rfl
@[simp] theorem State.respond_response (r : Response) : (s.respond r).response = some r := rfl

@[simp] theorem State.raise_mirror (e : Err) : (s.raise e).mirror = s.mirror := rfl
@[simp] theorem State.raise_config (e : Err) : (s.raise e).config = s.config := rfl
@[simp] theorem State.raise_arrivals (e : Err) : (s.raise e).arrivals = s.arrivals := rfl
@[simp] theorem State.raise_response (e : Err) : (s.raise e).response = some ⟨e.status, e.info, .none, .none⟩ := rfl

@[simp] theorem State.answer_mirror (r : Result) : (s.answer r).mirror = s.mirror := rfl
@[simp] theorem State.answer_config (r : Result) : (s.answer r).config = s.config := rfl
@[simp] theorem State.answer_arrivals (r : Result) : (s.answer r).arrivals = s.arrivals := rfl
@[simp] theorem State.answer_response (r : Result) : (s.answer r).response = some ⟨.ok, [], r, .none⟩ := rfl

@[simp] theorem State.commit_mirror (m : Mirror) (tag : Tag) : (s.commit m tag).mirror = m := rfl
@[simp] theorem State.commit_config (m : Mirror) (tag : Tag) : (s.commit m tag).config = s.config := rfl
@[simp] theorem State.commit_arrivals (m : Mirror) (tag : Tag) : (s.commit m tag).arrivals = s.arrivals := rfl
@[simp] theorem State.commit_response (m : Mirror) (tag : Tag) : (s.commit m tag).response = some ⟨.ok, [], .none, tag⟩ := rfl

@[simp] theorem Mirror.setEditParam_edit_param (i : Nat) (v : Byte) :
    (m.setEditParam i v).edit.param = m.edit.param.set i v := rfl
@[simp] theorem Mirror.setEditParam_edit_seq (i : Nat) (v : Byte) :
    (m.setEditParam i v).edit.seq = m.edit.seq := rfl
@[simp] theorem Mirror.setEditParam_main_param (i : Nat) (v : Byte) :
    (m.setEditParam i v).main.param = m.main.param := rfl
@[simp] theorem Mirror.setEditParam_main_bank (i : Nat) (v : Byte) :
    (m.setEditParam i v).main.bank = m.main.bank := rfl
@[simp] theorem Mirror.setEditParam_main_program (i : Nat) (v : Byte) :
    (m.setEditParam i v).main.program = m.main.program := rfl
@[simp] theorem Mirror.setEditParam_cells (i : Nat) (v : Byte) :
    (m.setEditParam i v).cells = m.cells := rfl
@[simp] theorem Mirror.setEditParam_waves (i : Nat) (v : Byte) :
    (m.setEditParam i v).waves = m.waves := rfl

@[simp] theorem Mirror.setEditSeq_edit_param (i : Nat) (v : Byte) :
    (m.setEditSeq i v).edit.param = m.edit.param := rfl
@[simp] theorem Mirror.setEditSeq_edit_seq (i : Nat) (v : Byte) :
    (m.setEditSeq i v).edit.seq = m.edit.seq.set i v := rfl
@[simp] theorem Mirror.setEditSeq_main_param (i : Nat) (v : Byte) :
    (m.setEditSeq i v).main.param = m.main.param := rfl
@[simp] theorem Mirror.setEditSeq_main_bank (i : Nat) (v : Byte) :
    (m.setEditSeq i v).main.bank = m.main.bank := rfl
@[simp] theorem Mirror.setEditSeq_main_program (i : Nat) (v : Byte) :
    (m.setEditSeq i v).main.program = m.main.program := rfl
@[simp] theorem Mirror.setEditSeq_cells (i : Nat) (v : Byte) :
    (m.setEditSeq i v).cells = m.cells := rfl
@[simp] theorem Mirror.setEditSeq_waves (i : Nat) (v : Byte) :
    (m.setEditSeq i v).waves = m.waves := rfl

@[simp] theorem Mirror.setEditAll_edit_param (u : List Byte) :
    (m.setEditAll u).edit.param = u.take 128 := rfl
@[simp] theorem Mirror.setEditAll_edit_seq (u : List Byte) :
    (m.setEditAll u).edit.seq = u.drop 128 := rfl
@[simp] theorem Mirror.setEditAll_main_param (u : List Byte) :
    (m.setEditAll u).main.param = m.main.param := rfl
@[simp] theorem Mirror.setEditAll_main_bank (u : List Byte) :
    (m.setEditAll u).main.bank = m.main.bank := rfl
@[simp] theorem Mirror.setEditAll_main_program (u : List Byte) :
    (m.setEditAll u).main.program = m.main.program := rfl
@[simp] theorem Mirror.setEditAll_cells (u : List Byte) :
    (m.setEditAll u).cells = m.cells := rfl
@[simp] theorem Mirror.setEditAll_waves (u : List Byte) :
    (m.setEditAll u).waves = m.waves := rfl

@[simp] theorem Mirror.setMainParam_edit_param (i : Nat) (v : Byte) :
    (m.setMainParam i v).edit.param = m.edit.param := rfl
@[simp] theorem Mirror.setMainParam_edit_seq (i : Nat) (v : Byte) :
    (m.setMainParam i v).edit.seq = m.edit.seq := rfl
@[simp] theorem Mirror.setMainParam_main_param (i : Nat) (v : Byte) :
    (m.setMainParam i v).main.param = m.main.param.set i v := rfl
@[simp] theorem Mirror.setMainParam_main_bank (i : Nat) (v : Byte) :
    (m.setMainParam i v).main.bank = m.main.bank := rfl
@[simp] theorem Mirror.setMainParam_main_program (i : Nat) (v : Byte) :
    (m.setMainParam i v).main.program = m.main.program := rfl
@[simp] theorem Mirror.setMainParam_cells (i : Nat) (v : Byte) :
    (m.setMainParam i v).cells = m.cells := rfl
@[simp] theorem Mirror.setMainParam_waves (i : Nat) (v : Byte) :
    (m.setMainParam i v).waves = m.waves := rfl

@[simp] theorem Mirror.setMainAll_edit_param (u : List Byte) :
    (m.setMainAll u).edit.param = m.edit.param := rfl
@[simp] theorem Mirror.setMainAll_edit_seq (u : List Byte) :
    (m.setMainAll u).edit.seq = m.edit.seq := rfl
@[simp] theorem Mirror.setMainAll_main_param (u : List Byte) :
    (m.setMainAll u).main.param = u := rfl
@[simp] theorem Mirror.setMainAll_main_bank (u : List Byte) :
    (m.setMainAll u).main.bank = m.main.bank := rfl
@[simp] theorem Mirror.setMainAll_main_program (u : List Byte) :
    (m.setMainAll u).main.program = m.main.program := rfl
@[simp] theorem Mirror.setMainAll_cells (u : List Byte) :
    (m.setMainAll u).cells = m.cells := rfl
@[simp] theorem Mirror.setMainAll_waves (u : List Byte) :
    (m.setMainAll u).waves = m.waves := rfl

@[simp] theorem Mirror.setBank_edit_param (v : Option (Fin 4)) :
    (m.setBank v).edit.param = m.edit.param := rfl
@[simp] theorem Mirror.setBank_edit_seq (v : Option (Fin 4)) :
    (m.setBank v).edit.seq = m.edit.seq := rfl
@[simp] theorem Mirror.setBank_main_param (v : Option (Fin 4)) :
    (m.setBank v).main.param = m.main.param := rfl
@[simp] theorem Mirror.setBank_main_bank (v : Option (Fin 4)) :
    (m.setBank v).main.bank = v := rfl
@[simp] theorem Mirror.setBank_main_program (v : Option (Fin 4)) :
    (m.setBank v).main.program = m.main.program := rfl
@[simp] theorem Mirror.setBank_cells (v : Option (Fin 4)) :
    (m.setBank v).cells = m.cells := rfl
@[simp] theorem Mirror.setBank_waves (v : Option (Fin 4)) :
    (m.setBank v).waves = m.waves := rfl

@[simp] theorem Mirror.setProgram_edit_param (v : Option (Fin 128)) :
    (m.setProgram v).edit.param = m.edit.param := rfl
@[simp] theorem Mirror.setProgram_edit_seq (v : Option (Fin 128)) :
    (m.setProgram v).edit.seq = m.edit.seq := rfl
@[simp] theorem Mirror.setProgram_main_param (v : Option (Fin 128)) :
    (m.setProgram v).main.param = m.main.param := rfl
@[simp] theorem Mirror.setProgram_main_bank (v : Option (Fin 128)) :
    (m.setProgram v).main.bank = m.main.bank := rfl
@[simp] theorem Mirror.setProgram_main_program (v : Option (Fin 128)) :
    (m.setProgram v).main.program = v := rfl
@[simp] theorem Mirror.setProgram_cells (v : Option (Fin 128)) :
    (m.setProgram v).cells = m.cells := rfl
@[simp] theorem Mirror.setProgram_waves (v : Option (Fin 128)) :
    (m.setProgram v).waves = m.waves := rfl

@[simp] theorem Mirror.setCellParams_edit_param (b p : Nat) (v : Option (List Byte)) :
    (m.setCellParams b p v).edit.param = m.edit.param := rfl
@[simp] theorem Mirror.setCellParams_edit_seq (b p : Nat) (v : Option (List Byte)) :
    (m.setCellParams b p v).edit.seq = m.edit.seq := rfl
@[simp] theorem Mirror.setCellParams_main_param (b p : Nat) (v : Option (List Byte)) :
    (m.setCellParams b p v).main.param = m.main.param := rfl
@[simp] theorem Mirror.setCellParams_main_bank (b p : Nat) (v : Option (List Byte)) :
    (m.setCellParams b p v).main.bank = m.main.bank := rfl
@[simp] theorem Mirror.setCellParams_main_program (b p : Nat) (v : Option (List Byte)) :
    (m.setCellParams b p v).main.program = m.main.program := rfl
@[simp] theorem Mirror.setCellParams_cells (b p : Nat) (v : Option (List Byte)) :
    (m.setCellParams b p v).cells = m.cells.modify (cellIndex b p) fun c => { c with params := v } := rfl
@[simp] theorem Mirror.setCellParams_waves (b p : Nat) (v : Option (List Byte)) :
    (m.setCellParams b p v).waves = m.waves := rfl

@[simp] theorem Mirror.setCellName_edit_param (b p : Nat) (v : Option (List Byte)) :
    (m.setCellName b p v).edit.param = m.edit.param := rfl
@[simp] theorem Mirror.setCellName_edit_seq (b p : Nat) (v : Option (List Byte)) :
    (m.setCellName b p v).edit.seq = m.edit.seq := rfl
@[simp] theorem Mirror.setCellName_main_param (b p : Nat) (v : Option (List Byte)) :
    (m.setCellName b p v).main.param = m.main.param := rfl
@[simp] theorem Mirror.setCellName_main_bank (b p : Nat) (v : Option (List Byte)) :
    (m.setCellName b p v).main.bank = m.main.bank := rfl
@[simp] theorem Mirror.setCellName_main_program (b p : Nat) (v : Option (List Byte)) :
    (m.setCellName b p v).main.program = m.main.program := rfl
@[simp] theorem Mirror.setCellName_cells (b p : Nat) (v : Option (List Byte)) :
    (m.setCellName b p v).cells = m.cells.modify (cellIndex b p) fun c => { c with name := v } := rfl
@[simp] theorem Mirror.setCellName_waves (b p : Nat) (v : Option (List Byte)) :
    (m.setCellName b p v).waves = m.waves := rfl

@[simp] theorem Mirror.setWave_edit_param (w : Nat) (v : Option (List Point)) :
    (m.setWave w v).edit.param = m.edit.param := rfl
@[simp] theorem Mirror.setWave_edit_seq (w : Nat) (v : Option (List Point)) :
    (m.setWave w v).edit.seq = m.edit.seq := rfl
@[simp] theorem Mirror.setWave_main_param (w : Nat) (v : Option (List Point)) :
    (m.setWave w v).main.param = m.main.param := rfl
@[simp] theorem Mirror.setWave_main_bank (w : Nat) (v : Option (List Point)) :
    (m.setWave w v).main.bank = m.main.bank := rfl
@[simp] theorem Mirror.setWave_main_program (w : Nat) (v : Option (List Point)) :
    (m.setWave w v).main.program = m.main.program := rfl
@[simp] theorem Mirror.setWave_cells (w : Nat) (v : Option (List Point)) :
    (m.setWave w v).cells = m.cells := rfl
@[simp] theorem Mirror.setWave_waves (w : Nat) (v : Option (List Point)) :
    (m.setWave w v).waves = m.waves.set w v := rfl

end Sys2Proof.Machine
end

