-- ==== Sys2Proof/Laws/Mirror.lean ====
section
/-! SUPPORT. Reads after writes, and every write of the mirror keeps the shape of R21. -/

namespace Sys2Proof.Machine

/-! ### Lists -/

theorem getD_set_self {α : Type} (l : List α) (i : Nat) (v d : α) (h : i < l.length) :
    (l.set i v).getD i d = v := by
  simp [List.getD, h]

theorem getD_set_ne {α : Type} (l : List α) (i j : Nat) (v d : α) (h : j ≠ i) :
    (l.set i v).getD j d = l.getD j d := by
  simp [List.getD, List.getElem?_set_ne (Ne.symm h)]

theorem getD_modify_self {α : Type} (l : List α) (i : Nat) (f : α → α) (d : α) (h : i < l.length) :
    (l.modify i f).getD i d = f (l.getD i d) := by
  simp [List.getD, h]

theorem getD_modify_ne {α : Type} (l : List α) (i j : Nat) (f : α → α) (d : α) (h : j ≠ i) :
    (l.modify i f).getD j d = l.getD j d := by
  simp [List.getD, Ne.symm h]

theorem mem_modify {α : Type} (l : List α) (i : Nat) (f : α → α) (x : α) (h : x ∈ l.modify i f) :
    x ∈ l ∨ ∃ y ∈ l, x = f y := by
  rw [List.mem_iff_getElem?] at h
  obtain ⟨k, hk⟩ := h
  rw [List.getElem?_modify] at hk
  cases hl : l[k]? with
  | none => simp [hl] at hk
  | some y =>
    have hy : y ∈ l := List.mem_of_getElem? hl
    by_cases hik : i = k
    · simp [hl, hik] at hk
      exact .inr ⟨y, hy, hk.symm⟩
    · simp [hl, hik] at hk
      exact .inl (hk ▸ hy)

/-- Two cells of the matrix have one place only if they are the same cell. -/
theorem cellIndex_inj {b p b' p' : Nat} (hp : p < 128) (hp' : p' < 128)
    (h : cellIndex b p = cellIndex b' p') : b = b' ∧ p = p' := by
  unfold cellIndex at h
  omega

theorem cellIndex_lt {b p : Nat} (hb : b < 4) (hp : p < 128) : cellIndex b p < 512 := by
  unfold cellIndex
  omega

variable (m : Mirror)

/-! ### The element written -/

theorem Mirror.editParam_setEditParam (i : Nat) (v : Byte) (h : i < m.edit.param.length) :
    (m.setEditParam i v).editParam i = v := getD_set_self _ _ _ _ h

theorem Mirror.editSeq_setEditSeq (i : Nat) (v : Byte) (h : i < m.edit.seq.length) :
    (m.setEditSeq i v).editSeq i = v := getD_set_self _ _ _ _ h

theorem Mirror.mainParam_setMainParam (i : Nat) (v : Byte) (h : i < m.main.param.length) :
    (m.setMainParam i v).mainParam i = v := getD_set_self _ _ _ _ h

theorem Mirror.wave_setWave (w : Nat) (v : Option (List Point)) (h : w < m.waves.length) :
    (m.setWave w v).wave w = v := getD_set_self _ _ _ _ h

theorem Mirror.cellParams_setCellParams (b p : Nat) (v : Option (List Byte))
    (h : cellIndex b p < m.cells.length) : (m.setCellParams b p v).cellParams b p = v := by
  simp [Mirror.cellParams, h]

theorem Mirror.cellName_setCellName (b p : Nat) (v : Option (List Byte))
    (h : cellIndex b p < m.cells.length) : (m.setCellName b p v).cellName b p = v := by
  simp [Mirror.cellName, h]

/-! ### The elements left alone -/

theorem Mirror.editParam_setEditParam_ne (i j : Nat) (v : Byte) (h : j ≠ i) :
    (m.setEditParam i v).editParam j = m.editParam j := getD_set_ne _ _ _ _ _ h

theorem Mirror.editSeq_setEditSeq_ne (i j : Nat) (v : Byte) (h : j ≠ i) :
    (m.setEditSeq i v).editSeq j = m.editSeq j := getD_set_ne _ _ _ _ _ h

theorem Mirror.mainParam_setMainParam_ne (i j : Nat) (v : Byte) (h : j ≠ i) :
    (m.setMainParam i v).mainParam j = m.mainParam j := getD_set_ne _ _ _ _ _ h

theorem Mirror.wave_setWave_ne (i j : Nat) (v : Option (List Point)) (h : j ≠ i) :
    (m.setWave i v).wave j = m.wave j := getD_set_ne _ _ _ _ _ h

theorem Mirror.cellParams_setCellParams_ne (b p b' p' : Nat) (v : Option (List Byte))
    (h : cellIndex b' p' ≠ cellIndex b p) :
    (m.setCellParams b p v).cellParams b' p' = m.cellParams b' p' := by
  simp only [Mirror.cellParams, Mirror.setCellParams_cells, getD_modify_ne _ _ _ _ _ h]

theorem Mirror.cellName_setCellName_ne (b p b' p' : Nat) (v : Option (List Byte))
    (h : cellIndex b' p' ≠ cellIndex b p) :
    (m.setCellName b p v).cellName b' p' = m.cellName b' p' := by
  simp only [Mirror.cellName, Mirror.setCellName_cells, getD_modify_ne _ _ _ _ _ h]

/-- Writing a cell's params leaves every cell's name (R165). -/
@[simp] theorem Mirror.cellName_setCellParams (b p b' p' : Nat) (v : Option (List Byte)) :
    (m.setCellParams b p v).cellName b' p' = m.cellName b' p' := by
  simp only [Mirror.cellName, Mirror.setCellParams_cells, List.getD, List.getElem?_modify]
  split
  · cases m.cells[cellIndex b' p']? <;> rfl
  · cases m.cells[cellIndex b' p']? <;> rfl

/-- Writing a cell's name leaves every cell's params (R169). -/
@[simp] theorem Mirror.cellParams_setCellName (b p b' p' : Nat) (v : Option (List Byte)) :
    (m.setCellName b p v).cellParams b' p' = m.cellParams b' p' := by
  simp only [Mirror.cellParams, Mirror.setCellName_cells, List.getD, List.getElem?_modify]
  split
  · cases m.cells[cellIndex b' p']? <;> rfl
  · cases m.cells[cellIndex b' p']? <;> rfl

/-! ### Every write keeps the mirror's shape -/

variable {m}

theorem Mirror.wf_setEditParam (h : m.wf) (i : Nat) (v : Byte) : (m.setEditParam i v).wf := by
  simpa [Mirror.wf] using h

theorem Mirror.wf_setEditSeq (h : m.wf) (i : Nat) (v : Byte) : (m.setEditSeq i v).wf := by
  simpa [Mirror.wf] using h

theorem Mirror.wf_setMainParam (h : m.wf) (i : Nat) (v : Byte) : (m.setMainParam i v).wf := by
  simpa [Mirror.wf] using h

theorem Mirror.wf_setEditAll (h : m.wf) {u : List Byte} (hu : u.length = 192) :
    (m.setEditAll u).wf :=
  ⟨by simp [hu], by simp [hu], h.2.2⟩

theorem Mirror.wf_setMainAll (h : m.wf) {u : List Byte} (hu : u.length = 16) :
    (m.setMainAll u).wf :=
  ⟨h.1, h.2.1, hu, h.2.2.2⟩

theorem Mirror.wf_setBank (h : m.wf) (v : Option (Fin 4)) : (m.setBank v).wf := h

theorem Mirror.wf_setProgram (h : m.wf) (v : Option (Fin 128)) : (m.setProgram v).wf := h

theorem Mirror.wf_setCellParams (h : m.wf) (b p : Nat) {v : Option (List Byte)}
    (hv : paramsLegal v) : (m.setCellParams b p v).wf := by
  obtain ⟨h1, h2, h3, h4, h5, h6⟩ := h
  refine ⟨h1, h2, h3, by simp [h4], fun c hc => ?_, h6⟩
  obtain hc | ⟨y, hy, rfl⟩ := mem_modify _ _ _ _ hc
  · exact h5 c hc
  · exact ⟨hv, (h5 y hy).2⟩

theorem Mirror.wf_setCellName (h : m.wf) (b p : Nat) {v : Option (List Byte)}
    (hv : nameLegal v) : (m.setCellName b p v).wf := by
  obtain ⟨h1, h2, h3, h4, h5, h6⟩ := h
  refine ⟨h1, h2, h3, by simp [h4], fun c hc => ?_, h6⟩
  obtain hc | ⟨y, hy, rfl⟩ := mem_modify _ _ _ _ hc
  · exact h5 c hc
  · exact ⟨(h5 y hy).1, hv⟩

theorem Mirror.wf_setWave (h : m.wf) (w : Nat) {v : Option (List Point)} (hv : waveLegal v) :
    (m.setWave w v).wf := by
  obtain ⟨h1, h2, h3, h4, h5, h6, h7⟩ := h
  refine ⟨h1, h2, h3, h4, h5, by simp [h6], fun x hx => ?_⟩
  obtain hx | rfl := List.mem_or_eq_of_mem_set hx
  · exact h7 x hx
  · exact hv

/-- The mirror after reset has the shape (R36). -/
theorem Mirror.wf_reset : Mirror.reset.wf := by
  refine ⟨rfl, rfl, rfl, List.length_replicate, fun c hc => ?_, List.length_replicate,
    fun v hv => ?_⟩
  · obtain rfl := List.eq_of_mem_replicate (show c ∈ List.replicate 512 ⟨none, none⟩ from hc)
    exact ⟨nofun, nofun⟩
  · obtain rfl := List.eq_of_mem_replicate (show v ∈ List.replicate 128 none from hv)
    nofun

/-- A legal environment write keeps the mirror's shape (R34). -/
theorem EnvWrite.wf_apply (h : m.wf) {w : EnvWrite} (hw : w.legal = true) : (w.apply m).wf := by
  cases w with
  | editParam i v => exact Mirror.wf_setEditParam h i v
  | editSeq i v => exact Mirror.wf_setEditSeq h i v
  | cellParams b p v => exact Mirror.wf_setCellParams h b p (of_decide_eq_true hw).2.2
  | cellName b p v => exact Mirror.wf_setCellName h b p (of_decide_eq_true hw).2.2
  | bank v => exact Mirror.wf_setBank h v
  | program v => exact Mirror.wf_setProgram h v

end Sys2Proof.Machine
end

