-- ==== Sys2Proof/Laws/Codec.lean ====
section
/-! SUPPORT. What the codecs and the operand checks can answer, said once each; the
packer and unpacker by their groups. -/

namespace Sys2Proof.Machine

/-! ### Checks -/

theorem checkBelow_ok {limit n : Nat} (h : n < limit) : checkBelow limit n = .ok () := by
  simp [checkBelow, h]

theorem checkBelow_error {limit n : Nat} (h : limit ≤ n) :
    checkBelow limit n = .error (rangeErr [n]) := by
  simp [checkBelow, h]

/-- An address check passes exactly below the limit. -/
theorem checkBelow_cases (limit n : Nat) :
    (n < limit ∧ checkBelow limit n = .ok ()) ∨
      (limit ≤ n ∧ checkBelow limit n = .error (rangeErr [n])) := by
  by_cases h : n < limit
  · exact .inl ⟨h, checkBelow_ok h⟩
  · exact .inr ⟨by omega, checkBelow_error (by omega)⟩

@[simp] theorem checkShape_true : checkShape true = .ok () := rfl

@[simp] theorem checkShape_false : checkShape false = .error ⟨.refused, []⟩ := rfl

/-! ### Nibbles -/

theorem nibDec_ok {lo hi : Byte} (hlo : lo.toNat < 16) (hhi : hi.toNat < 16) :
    nibDec lo hi = .ok (joinNibbles lo hi) := by
  simp [nibDec, hlo, hhi]

theorem nibDec_error {lo hi : Byte} (h : ¬(lo.toNat < 16 ∧ hi.toNat < 16)) :
    nibDec lo hi = .error (rangeErr [lo.toNat, hi.toNat]) := by
  simp only [nibDec, h, if_false]

/-- NIB.DEC decodes exactly the pairs of nibbles (R101). -/
theorem nibDec_cases (lo hi : Byte) :
    (lo.toNat < 16 ∧ hi.toNat < 16 ∧ nibDec lo hi = .ok (joinNibbles lo hi)) ∨
      (¬(lo.toNat < 16 ∧ hi.toNat < 16) ∧
        nibDec lo hi = .error (rangeErr [lo.toNat, hi.toNat])) := by
  by_cases h : lo.toNat < 16 ∧ hi.toNat < 16
  · exact .inl ⟨h.1, h.2, nibDec_ok h.1 h.2⟩
  · exact .inr ⟨h, nibDec_error h⟩

theorem lowNibble_toNat (v : Byte) : (lowNibble v).toNat = v.toNat % 16 := by
  simp [lowNibble, BitVec.toNat_and]
  exact Nat.and_two_pow_sub_one_eq_mod v.toNat 4

theorem highNibble_toNat (v : Byte) : (highNibble v).toNat = v.toNat / 16 := by
  simp [highNibble, Nat.shiftRight_eq_div_pow]

theorem joinNibbles_toNat {lo hi : Byte} (hlo : lo.toNat < 16) (hhi : hi.toNat < 16) :
    (joinNibbles lo hi).toNat = lo.toNat + 16 * hi.toNat := by
  have h : (hi.toNat <<< 4) % 256 = 2 ^ 4 * hi.toNat := by
    rw [Nat.shiftLeft_eq]; omega
  have h2 := Nat.two_pow_add_eq_or_of_lt (i := 4) hlo hi.toNat
  simp [joinNibbles, BitVec.toNat_or, BitVec.toNat_shiftLeft, h]
  rw [Nat.or_comm, ← h2]
  omega

/-- If a run of nibble pairs decodes, it has a value for each pair. -/
theorem nibDecAll_length : ∀ (p vs : List Byte), nibDecAll p = .ok vs → vs.length = p.length / 2
  | [], vs, h => by simp [nibDecAll] at h; simp [h]
  | [_], vs, h => by simp [nibDecAll] at h; simp [h]
  | lo :: hi :: rest, vs, h => by
    obtain ⟨-, -, e⟩ | ⟨-, e⟩ := nibDec_cases lo hi
    · cases hr : nibDecAll rest with
      | error err => simp [nibDecAll, e, hr, bind, Except.bind] at h
      | ok ws =>
        simp [nibDecAll, e, hr, bind, Except.bind, pure, Except.pure] at h
        have := nibDecAll_length rest ws hr
        subst h
        simp [this]
        omega
    · simp [nibDecAll, e, bind, Except.bind] at h

/-! ### Names -/

/-- STR.ENC's three answers (R111). -/
theorem strEnc_cases (name : List Nat) :
    (16 < name.length ∧ strEnc name = .error ⟨.overflow, [name.length]⟩) ∨
      (name.length ≤ 16 ∧ ∃ c ∈ name, 127 < c ∧ strEnc name = .error (rangeErr [c])) ∨
      (name.length ≤ 16 ∧ (∀ c ∈ name, c ≤ 127) ∧
        strEnc name =
          .ok (name.map (BitVec.ofNat 8) ++ List.replicate (16 - name.length) 0x20)) := by
  by_cases h : 16 < name.length
  · exact .inl ⟨h, by simp [strEnc, h]⟩
  · cases hf : name.find? (127 < ·) with
    | some c =>
      have h1 := List.mem_of_find?_eq_some hf
      have h2 := List.find?_some hf
      exact .inr (.inl ⟨by omega, c, h1, by simpa using h2, by simp [strEnc, h, hf]⟩)
    | none =>
      refine .inr (.inr ⟨by omega, ?_, by simp [strEnc, h, hf]⟩)
      intro c hc
      simpa using (List.find?_eq_none.mp hf) c hc

@[simp] theorem strDec_length (b : List Byte) : (strDec b).length = b.length := by
  simp [strDec]

theorem nameChar_isPrintable (b : Byte) : isPrintable (nameChar b) = true := by
  unfold nameChar
  split
  · assumption
  · rfl

/-- Every byte that STR.DEC answers is in 32..126 (R112). -/
theorem strDec_isPrintable (b : List Byte) : ∀ c ∈ strDec b, isPrintable c = true := by
  intro c hc
  obtain ⟨d, -, rfl⟩ := List.mem_map.mp hc
  exact nameChar_isPrintable d

/-! ### Groups -/

theorem range_flatMap_succ {α : Type} (n : Nat) (f : Nat → List α) :
    (List.range (n + 1)).flatMap f = f 0 ++ (List.range n).flatMap fun g => f (g + 1) := by
  rw [List.range_succ_eq_map]
  simp [List.flatMap_map]

@[simp] theorem pack_nil : pack [] = [] := rfl

/-- The packer takes one group of up to 7 bytes, then packs the rest (R103, R104). -/
theorem pack_group (u : List Byte) (h : u ≠ []) :
    pack u = packGroup (u.take 7) ++ pack (u.drop 7) := by
  have hpos : 0 < u.length := List.length_pos_iff.mpr h
  have hn : (u.length + 6) / 7 = ((u.drop 7).length + 6) / 7 + 1 := by
    simp only [List.length_drop]; omega
  unfold pack
  rw [hn, range_flatMap_succ]
  simp [List.drop_drop, Nat.mul_add, Nat.add_comm]

@[simp] theorem unpack_nil : unpack [] = [] := rfl

/-- The unpacker takes one wire group of up to 8 bytes, then unpacks the rest (R107). -/
theorem unpack_group (w : List Byte) (h : w ≠ []) :
    unpack w = unpackGroup (w.take 8) ++ unpack (w.drop 8) := by
  have hpos : 0 < w.length := List.length_pos_iff.mpr h
  have hn : (w.length + 7) / 8 = ((w.drop 8).length + 7) / 8 + 1 := by
    simp only [List.length_drop]; omega
  unfold unpack
  rw [hn, range_flatMap_succ]
  simp [List.drop_drop, Nat.mul_add, Nat.add_comm]

@[simp] theorem packGroup_length (grp : List Byte) : (packGroup grp).length = grp.length + 1 := by
  simp [packGroup]

@[simp] theorem restoreFrom_length (flag : Byte) :
    ∀ (k : Nat) (ds : List Byte), (restoreFrom flag k ds).length = ds.length
  | _, [] => rfl
  | k, _ :: ds => by simp [restoreFrom, restoreFrom_length flag (k + 1) ds]

@[simp] theorem unpackGroup_length (w : List Byte) : (unpackGroup w).length = w.length - 1 := by
  cases w <;> simp [unpackGroup, restoreGroup]

/-- Data byte k of a restored group (R107). -/
theorem restoreFrom_getElem? (flag : Byte) :
    ∀ (k : Nat) (ds : List Byte) (j : Nat), (restoreFrom flag k ds)[j]? =
      ds[j]?.map fun d => if flag.getLsbD (k + j) then d ||| 0x80 else d
  | _, [], _ => by simp [restoreFrom]
  | k, d :: ds, 0 => by simp [restoreFrom]
  | k, d :: ds, j + 1 => by
    simp only [restoreFrom, List.getElem?_cons_succ, restoreFrom_getElem? flag (k + 1) ds j]
    rw [show k + (j + 1) = k + 1 + j by omega]

/-! ### Points -/

@[simp] theorem bytesOfPoints_nil : bytesOfPoints [] = [] := rfl

@[simp] theorem bytesOfPoints_cons (pt : Point) (pts : List Point) :
    bytesOfPoints (pt :: pts) =
      pt.setWidth 8 :: (pt >>> 8).setWidth 8 :: bytesOfPoints pts := rfl

@[simp] theorem bytesOfPoints_length (pts : List Point) :
    (bytesOfPoints pts).length = 2 * pts.length := by
  induction pts with
  | nil => rfl
  | cons pt pts ih => simp [ih]; omega

/-- Each pair of bytes gives one point (R50). -/
theorem pointsOfBytes_length : ∀ bs : List Byte, (pointsOfBytes bs).length = bs.length / 2
  | [] => rfl
  | [_] => by simp [pointsOfBytes]
  | _ :: _ :: rest => by simp [pointsOfBytes, pointsOfBytes_length rest]; omega

end Sys2Proof.Machine
end

