-- ==== Sys2Proof/Laws/Ops.lean ====
section
/-! SUPPORT. What a shared ending, an acceptance check, a merge and a step can do, said
once each (inversion lemmas): later proofs cite these and unfold nothing. -/

namespace Sys2Proof.Machine

/-! ### Endings -/

@[simp] theorem finish_ok (r : Result) (s : State) : finish (.ok r) s = .next (s.answer r) := rfl

@[simp] theorem finish_error (e : Err) (s : State) : finish (.error e) s = .next (s.raise e) := rfl

/-- An operation that writes nothing ends in a response and changes nothing else. -/
theorem finish_cases {x : Except Err Result} {s t : State} (h : finish x s = .next t) :
    (∃ r, x = .ok r ∧ t = s.answer r) ∨ ∃ e, x = .error e ∧ t = s.raise e := by
  cases x with
  | ok r => exact .inl ⟨r, rfl, by simpa using h.symm⟩
  | error e => exact .inr ⟨e, rfl, by simpa using h.symm⟩

@[simp] theorem finishParse_ok (m : Mirror) (tag : Tag) (s : State) :
    finishParse (.ok (m, tag)) s = .next (s.commit m tag) := rfl

@[simp] theorem finishParse_error (e : Err) (s : State) :
    finishParse (.error e) s = .next (s.raise e) := rfl

/-- A PARSE ends in a committed mirror with its tag, or in an error that changes nothing. -/
theorem finishParse_cases {x : Except Err (Mirror × Tag)} {s t : State}
    (h : finishParse x s = .next t) :
    (∃ m tag, x = .ok (m, tag) ∧ t = s.commit m tag) ∨ ∃ e, x = .error e ∧ t = s.raise e := by
  cases x with
  | ok r => exact .inl ⟨r.1, r.2, rfl, by simpa [finishParse] using h.symm⟩
  | error e => exact .inr ⟨e, rfl, by simpa using h.symm⟩

/-! ### Binds of a check and its continuation -/

@[simp] theorem ok_bind {α β : Type} (a : α) (f : α → Except Err β) :
    (Except.ok a >>= f) = f a := rfl

@[simp] theorem error_bind {α β : Type} (e : Err) (f : α → Except Err β) :
    (Except.error e >>= f) = .error e := rfl

/-- A computation that succeeds has first passed its check. -/
theorem bind_ok {α β : Type} {x : Except Err α} {f : α → Except Err β} {b : β}
    (h : (x >>= f) = .ok b) : ∃ a, x = .ok a ∧ f a = .ok b := by
  cases x with
  | ok a => exact ⟨a, rfl, h⟩
  | error e => simp at h

/-! ### Acceptance of a frame -/

/-- The body checks pass exactly for wire bytes, an inbound identifier and its length. -/
theorem bodyCheck_ok_iff {id : Byte} {p : List Byte} :
    bodyCheck id p = .ok () ↔
      (∀ b ∈ id :: p, b.toNat < 128) ∧ inboundPayloadLen id = some p.length := by
  unfold bodyCheck
  by_cases h : (id :: p).any (fun b => 128 ≤ b.toNat) = true
  · simp only [h, if_true]
    simp only [List.any_eq_true, decide_eq_true_eq] at h
    obtain ⟨b, hb, hb2⟩ := h
    constructor
    · intro hx; cases hx
    · rintro ⟨h1, -⟩
      have := h1 b hb
      omega
  · have hall : ∀ b ∈ id :: p, b.toNat < 128 := by
      intro b hb
      by_contra hc
      exact h (List.any_eq_true.mpr ⟨b, hb, by simpa using hc⟩)
    simp only [h]
    by_cases h2 : inboundPayloadLen id = none
    · simp [h2]
    · by_cases h3 : inboundPayloadLen id = some p.length
      · simp [h3]
        simpa using hall
      · simp [h2, h3]

/-- What the body checks answer otherwise always names the identifier (R203). -/
theorem bodyCheck_error {id : Byte} {p : List Byte} {e : FrameFault}
    (h : bodyCheck id p = .error e) : e = .unrecognized (some id) := by
  unfold bodyCheck at h
  split at h
  · exact (Except.error.inj h).symm
  · split at h
    · exact (Except.error.inj h).symm
    · split at h
      · exact (Except.error.inj h).symm
      · cases h

/-- A frame passes R160's checks exactly if it is SYSID, an identifier and a payload
that pass the body checks. -/
theorem frameCheck_ok_iff {sysid f p : List Byte} {id : Byte} (hs : sysid.length = 3) :
    frameCheck sysid f = .ok (id, p) ↔ f = frame sysid id p ∧ bodyCheck id p = .ok () := by
  unfold frameCheck frame
  constructor
  · intro h
    split at h
    · cases h
    · rename_i hf
      push Not at hf
      split at h
      · cases h
      · rename_i id' p' hd
        split at h
        · rename_i u hb
          simp only [Except.ok.injEq, Prod.mk.injEq] at h
          obtain ⟨rfl, rfl⟩ := h
          refine ⟨?_, hb⟩
          rw [← List.take_append_drop 3 f, hd, hf.2]
        · cases h
  · rintro ⟨rfl, hb⟩
    have h1 : (sysid ++ id :: p).take 3 = sysid := by
      rw [List.take_append_of_le_length (by omega), List.take_of_length_le (by omega)]
    have h2 : (sysid ++ id :: p).drop 3 = id :: p := by
      rw [← hs, List.drop_left]
    have h3 : ¬((sysid ++ id :: p).length < 3) := by simp [hs]
    simp only [h1, h2, hb, h3, ne_eq, not_true_eq_false, or_self, if_false]

/-- The checks of a PARSE row: its merge if they pass, else UNRECOGNIZED with its
identifier. -/
theorem mergeChecked_cases (id : Byte) (p : List Byte) (x : Except Err (Mirror × Tag)) :
    (bodyCheck id p = .ok () ∧ mergeChecked id p x = x) ∨
      ((∃ e, bodyCheck id p = .error e) ∧
        mergeChecked id p x = .error ⟨.unrecognized, [id.toNat]⟩) := by
  cases h : bodyCheck id p with
  | ok u => exact .inl ⟨by cases u; rfl, by simp [mergeChecked, h]⟩
  | error e =>
    have := bodyCheck_error h
    subst this
    exact .inr ⟨⟨_, rfl⟩, by simp [mergeChecked, h, frameErr]⟩

/-! ### Merges: each writes one region, or is a RANGE error -/

theorem mergeProgParam_ok {index lo hi : Byte} {m m' : Mirror} {tag : Tag}
    (h : mergeProgParam index lo hi m = .ok (m', tag)) :
    m' = m.setEditParam index.toNat (joinNibbles lo hi) ∧ tag = .editParam index.toNat ∧
      lo.toNat < 16 ∧ hi.toNat < 16 := by
  obtain ⟨h1, h2, e⟩ | ⟨-, e⟩ := nibDec_cases lo hi
  · simp only [mergeProgParam, e, ok_bind, pure, Except.pure, Except.ok.injEq, Prod.mk.injEq] at h
    exact ⟨h.1.symm, h.2.symm, h1, h2⟩
  · simp [mergeProgParam, e] at h

theorem mergeSeqStep_ok {step lo hi : Byte} {m m' : Mirror} {tag : Tag}
    (h : mergeSeqStep step lo hi m = .ok (m', tag)) :
    m' = m.setEditSeq step.toNat (joinNibbles lo hi) ∧ tag = .seqStep step.toNat ∧
      step.toNat < 64 ∧ lo.toNat < 16 ∧ hi.toNat < 16 := by
  obtain ⟨h0, e0⟩ | ⟨-, e0⟩ := checkBelow_cases 64 step.toNat
  · obtain ⟨h1, h2, e⟩ | ⟨-, e⟩ := nibDec_cases lo hi
    · simp only [mergeSeqStep, checkStep, e0, e, ok_bind, pure, Except.pure, Except.ok.injEq,
        Prod.mk.injEq] at h
      exact ⟨h.1.symm, h.2.symm, h0, h1, h2⟩
    · simp [mergeSeqStep, checkStep, e0, e] at h
  · simp [mergeSeqStep, checkStep, e0] at h

theorem mergeMainParam_ok {index lo hi : Byte} {m m' : Mirror} {tag : Tag}
    (h : mergeMainParam index lo hi m = .ok (m', tag)) :
    m' = m.setMainParam index.toNat (joinNibbles lo hi) ∧ tag = .mainParam index.toNat ∧
      index.toNat < 16 ∧ lo.toNat < 16 ∧ hi.toNat < 16 := by
  obtain ⟨h0, e0⟩ | ⟨-, e0⟩ := checkBelow_cases 16 index.toNat
  · obtain ⟨h1, h2, e⟩ | ⟨-, e⟩ := nibDec_cases lo hi
    · simp only [mergeMainParam, checkMainIndex, e0, e, ok_bind, pure, Except.pure,
        Except.ok.injEq, Prod.mk.injEq] at h
      exact ⟨h.1.symm, h.2.symm, h0, h1, h2⟩
    · simp [mergeMainParam, checkMainIndex, e0, e] at h
  · simp [mergeMainParam, checkMainIndex, e0] at h

theorem mergeProgramDump_ok {bank program : Byte} {packed : List Byte} {m m' : Mirror} {tag : Tag}
    (h : mergeProgramDump bank program packed m = .ok (m', tag)) :
    m' = m.setCellParams bank.toNat program.toNat (some (unpack packed)) ∧
      tag = .cellParams bank.toNat program.toNat ∧ bank.toNat < 4 := by
  obtain ⟨h0, e0⟩ | ⟨-, e0⟩ := checkBelow_cases 4 bank.toNat
  · simp only [mergeProgramDump, checkBank, e0, ok_bind, pure, Except.pure, Except.ok.injEq,
      Prod.mk.injEq] at h
    exact ⟨h.1.symm, h.2.symm, h0⟩
  · simp [mergeProgramDump, checkBank, e0] at h

theorem mergeNameDump_ok {bank program : Byte} {name : List Byte} {m m' : Mirror} {tag : Tag}
    (h : mergeNameDump bank program name m = .ok (m', tag)) :
    m' = m.setCellName bank.toNat program.toNat (some (strDec name)) ∧
      tag = .cellName bank.toNat program.toNat ∧ bank.toNat < 4 := by
  obtain ⟨h0, e0⟩ | ⟨-, e0⟩ := checkBelow_cases 4 bank.toNat
  · simp only [mergeNameDump, checkBank, e0, ok_bind, pure, Except.pure, Except.ok.injEq,
      Prod.mk.injEq] at h
    exact ⟨h.1.symm, h.2.symm, h0⟩
  · simp [mergeNameDump, checkBank, e0] at h

theorem mergeMainDump_ok {nibbles : List Byte} {m m' : Mirror} {tag : Tag}
    (h : mergeMainDump nibbles m = .ok (m', tag)) :
    ∃ vs, nibDecAll nibbles = .ok vs ∧ m' = m.setMainAll vs ∧ tag = .mainAll := by
  obtain ⟨vs, e, h⟩ := bind_ok h
  simp only [pure, Except.pure, Except.ok.injEq, Prod.mk.injEq] at h
  exact ⟨vs, e, h.1.symm, h.2.symm⟩

/-! ### A step -/

/-- All that a step can do: nothing, answer the oldest request, or make the oldest
environment write (R56, R212). -/
theorem step_cases {s t : State} (h : step s = .next t) :
    (s.arrivals = [] ∧ t = s) ∨
      (∃ r rest i, s.arrivals = .command r :: rest ∧ decode s.config.sysid r = .ok i ∧
        exec i { s with arrivals := rest } = .next t) ∨
      (∃ r rest why, s.arrivals = .command r :: rest ∧ decode s.config.sysid r = .error why ∧
        t = { s with arrivals := rest }.raise ⟨.refused, []⟩) ∨
      ∃ w rest, s.arrivals = .envWrite w :: rest ∧ w.legal = true ∧
        t = { s with arrivals := rest, mirror := w.apply s.mirror } := by
  unfold step at h
  split at h
  · rename_i ha
    exact .inl ⟨ha, by simpa using h.symm⟩
  · rename_i r rest ha
    simp only [doCommand] at h
    split at h
    · rename_i i hd
      exact .inr (.inl ⟨r, rest, i, ha, hd, h⟩)
    · rename_i why hd
      exact .inr (.inr (.inl ⟨r, rest, why, ha, hd, by simpa [refuseRequest] using h.symm⟩))
  · rename_i w rest ha
    simp only [doEnvWrite] at h
    split at h
    · rename_i hl
      exact .inr (.inr (.inr ⟨w, rest, ha, hl, by simpa using h.symm⟩))
    · cases h

end Sys2Proof.Machine
end

