-- ==== Sys2Proof/Laws/Exec.lean ====
section
/-! SUPPORT. What an operation can do, said once: an operation other than PARSE answers
and changes nothing else; PARSE answers, or commits one of eight merges. -/

namespace Sys2Proof

/-! ### The command word and the frame -/

/-- A command word is its two fields (R81). -/
theorem cmd_toNat (cmd : CommandWord) :
    cmd.toNat = 256 * opField cmd + (kindField cmd).toNat := by
  simp [opField, kindField, Nat.shiftRight_eq_div_pow]
  omega

/-- The command word whose fields are known. -/
theorem cmd_of_fields {cmd : CommandWord} {n op kind : Nat} (hop : opField cmd = op)
    (hkind : (kindField cmd).toNat = kind) (h : 256 * op + kind = n) :
    cmd = BitVec.ofNat 12 n := by
  apply BitVec.eq_of_toNat_eq
  have h12 := cmd.isLt
  rw [cmd_toNat, hop, hkind, h] at *
  simp
  omega

/-- Only a three-byte SYSID leads an accepted frame. -/
theorem frameCheck_sysid {sysid f : List Byte} {x : Byte × List Byte}
    (h : frameCheck sysid f = .ok x) : sysid.length = 3 := by
  unfold frameCheck at h
  split at h
  · cases h
  · rename_i hf
    push Not at hf
    rw [← hf.2]
    simp
    omega

theorem payload_one {p : List Byte} (h : 1 ≤ p.length) : ∃ a q, p = a :: q := by
  match p, h with
  | a :: q, _ => exact ⟨a, q, rfl⟩

theorem payload_two {p : List Byte} (h : 2 ≤ p.length) : ∃ a b q, p = a :: b :: q := by
  match p, h with
  | a :: b :: q, _ => exact ⟨a, b, q, rfl⟩

theorem payload_three {p : List Byte} (h : p.length = 3) : ∃ a b c, p = [a, b, c] := by
  match p, h with
  | [a, b, c], _ => exact ⟨a, b, c, rfl⟩

end Sys2Proof

namespace Sys2Proof.Machine

/-- A payload that passes the checks selects a row of the table; the row encodes to the
payload's frame, and running it is R160's `case` on that payload. -/
theorem decodeBody_row {id : Byte} {p : List Byte} (hb : bodyCheck id p = .ok ()) :
    ∃ i, decodeBody id p = some i ∧
      (∀ sysid, encode sysid i = ⟨0x700, [.bytes (frame sysid id p)]⟩) ∧
      ∀ s, exec i s = finishParse (mergeBody id p s.mirror) s := by
  have hl := (bodyCheck_ok_iff.mp hb).2
  have fin : ∀ x (s : State), finishParse (mergeChecked id p x) s = finishParse x s :=
    fun x s => by simp [mergeChecked, hb]
  unfold inboundPayloadLen at hl
  unfold decodeBody mergeBody
  split_ifs at hl ⊢ <;> simp only [Option.some.injEq] at hl <;> subst_vars
  · obtain ⟨a, b, c, rfl⟩ := payload_three hl.symm
    exact ⟨_, rfl, fun _ => rfl, fun s => fin _ s⟩
  · obtain ⟨a, b, q, rfl⟩ := payload_two (p := p) (by omega)
    exact ⟨_, rfl, fun _ => rfl, fun s => fin _ s⟩
  · exact ⟨_, rfl, fun _ => rfl, fun s => fin _ s⟩
  · obtain ⟨a, b, c, rfl⟩ := payload_three hl.symm
    exact ⟨_, rfl, fun _ => rfl, fun s => fin _ s⟩
  · obtain ⟨a, b, c, rfl⟩ := payload_three hl.symm
    exact ⟨_, rfl, fun _ => rfl, fun s => fin _ s⟩
  · obtain ⟨a, q, rfl⟩ := payload_one (p := p) (by omega)
    exact ⟨_, rfl, fun _ => rfl, fun s => fin _ s⟩
  · exact ⟨_, rfl, fun _ => rfl, fun s => fin _ s⟩
  · obtain ⟨a, b, q, rfl⟩ := payload_two (p := p) (by omega)
    exact ⟨_, rfl, fun _ => rfl, fun s => fin _ s⟩

/-- A PARSE row is its frame's checks, then R160's `case`, on the payload it stands for. -/
theorem exec_row (i : Instr) (id : Byte) (hi : i.inboundId = some id) (s : State) :
    ∃ p, (encode s.config.sysid i).operands = [.bytes (frame s.config.sysid id p)] ∧
      exec i s = finishParse (mergeChecked id p (mergeBody id p s.mirror)) s := by
  cases i <;> simp only [Instr.inboundId, reduceCtorEq, Option.some.injEq] at hi <;> subst hi
  all_goals exact ⟨_, rfl, rfl⟩

/-- The length of an unpacked sequence (R108). -/
theorem unpack_length (w : List Byte) :
    (unpack w).length = 7 * (w.length / 8) + (w.length % 8 - 1) := by
  suffices h : ∀ n (w : List Byte), w.length ≤ n →
      (unpack w).length = 7 * (w.length / 8) + (w.length % 8 - 1) from h _ w le_rfl
  intro n
  induction n with
  | zero =>
    intro w h
    obtain rfl : w = [] := List.length_eq_zero_iff.mp (by omega)
    rfl
  | succ n ih =>
    intro w h
    by_cases hw : w = []
    · subst hw
      rfl
    · have hp := List.length_pos_iff.mpr hw
      rw [unpack_group w hw, List.length_append, ih _ (by simp; omega)]
      simp
      omega

/-- The eight writes of PARSE, each with its effect tag (R30, R165 to R172). -/
inductive Merged (m : Mirror) : Mirror → Tag → Prop
  | progParam (i : Nat) (v : Byte) (h : i < 128) : Merged m (m.setEditParam i v) (.editParam i)
  | seqStep (i : Nat) (v : Byte) (h : i < 64) : Merged m (m.setEditSeq i v) (.seqStep i)
  | mainParam (i : Nat) (v : Byte) (h : i < 16) : Merged m (m.setMainParam i v) (.mainParam i)
  | editDump (u : List Byte) (h : u.length = 192) : Merged m (m.setEditAll u) .editAll
  | mainDump (u : List Byte) (h : u.length = 16) : Merged m (m.setMainAll u) .mainAll
  | programDump (b p : Nat) (u : List Byte) (hb : b < 4) (hp : p < 128) (h : u.length = 192) :
    Merged m (m.setCellParams b p (some u)) (.cellParams b p)
  | nameDump (b p : Nat) (n : List Byte) (hb : b < 4) (hp : p < 128) (h : nameLegal (some n)) :
    Merged m (m.setCellName b p (some n)) (.cellName b p)
  | waveDump (w : Nat) (pts : List Point) (hw : w < 128) (h : pts.length = 128) :
    Merged m (m.setWave w (some pts)) (.wave w)

/-- What a merge of a checked payload can do. -/
theorem mergeBody_merged {id : Byte} {p : List Byte} {m m' : Mirror} {tag : Tag}
    (hb : bodyCheck id p = .ok ()) (h : mergeBody id p m = .ok (m', tag)) : Merged m m' tag := by
  obtain ⟨hw, hl⟩ := bodyCheck_ok_iff.mp hb
  have hbyte : ∀ k, (payloadByte p k).toNat < 128 := by
    intro k
    unfold payloadByte
    rw [List.getD_eq_getElem?_getD]
    cases hk : p[k]? with
    | none => simp
    | some b => simpa using hw b (List.mem_cons_of_mem _ (List.mem_of_getElem? hk))
  unfold inboundPayloadLen at hl
  unfold mergeBody at h
  split_ifs at h hl <;> simp only [Option.some.injEq] at hl
  · obtain ⟨rfl, rfl, -⟩ := mergeProgParam_ok h
    exact .progParam _ _ (hbyte 0)
  · obtain ⟨rfl, rfl, h4⟩ := mergeProgramDump_ok h
    exact .programDump _ _ _ h4 (hbyte 1) (by rw [unpack_length]; simp; omega)
  · simp only [mergeEditDump, Except.ok.injEq, Prod.mk.injEq] at h
    obtain ⟨rfl, rfl⟩ := h
    exact .editDump _ (by rw [unpack_length]; omega)
  · obtain ⟨rfl, rfl, h4, -⟩ := mergeSeqStep_ok h
    exact .seqStep _ _ h4
  · obtain ⟨rfl, rfl, h4, -⟩ := mergeMainParam_ok h
    exact .mainParam _ _ h4
  · simp only [mergeWaveDump, Except.ok.injEq, Prod.mk.injEq] at h
    obtain ⟨rfl, rfl⟩ := h
    exact .waveDump _ _ (hbyte 0) (by rw [pointsOfBytes_length, unpack_length]; simp; omega)
  · obtain ⟨vs, h1, rfl, rfl⟩ := mergeMainDump_ok h
    exact .mainDump _ (by rw [nibDecAll_length _ _ h1]; omega)
  · obtain ⟨rfl, rfl, h4⟩ := mergeNameDump_ok h
    refine .nameDump _ _ _ h4 (hbyte 1) fun n hn => ?_
    simp only [Option.mem_def, Option.some.injEq] at hn
    subst hn
    exact ⟨by simp; omega, strDec_isPrintable _⟩

/-- An operation other than PARSE ends in a result or an error that the parameters and
its operands alone determine. -/
theorem exec_nonparse (i : Instr) (s s' : State) (h : i.isParse = false)
    (hc : s'.config = s.config) : ∃ x, exec i s = finish x s ∧ exec i s' = finish x s' := by
  cases i <;> first | (simp [Instr.isParse] at h; done) | skip
  all_goals
    (first | refine ⟨_, rfl, ?_⟩ | refine ⟨.ok _, rfl, ?_⟩)
    (try simp only [exec, execMsbPack, execMsbUnpack, execAsmProgParam, execAsmProgramDump,
      execAsmEditDump, execAsmCtrlReset, execAsmReqProgram, execAsmReqEdit, execAsmSeqStep,
      execAsmMainParam, execAsmWaveDump, execAsmReqWave, execAsmReqMain, execAsmMainDump,
      execAsmReqName, execAsmNameDump, execAsmCtrlStartStop, execAsmCtrlShiftOn,
      execAsmCtrlShiftOff, asmFrame, hc])
    (try rfl)

/-- All that an operation can do: answer with tag NONE and leave the rest as it was, or,
for PARSE alone, commit one merge with its tag. -/
theorem exec_cases {i : Instr} {s t : State} (h : exec i s = .next t) :
    (∃ r, t = s.respond r ∧ r.tag = .none ∧ (r.status ≠ .ok → r.result = .none)) ∨
      (i.isParse = true ∧ ∃ m tag, Merged s.mirror m tag ∧ t = s.commit m tag) := by
  by_cases hp : i.isParse = true
  · by_cases hpp : ∃ f, i = .parse f
    · obtain ⟨f, rfl⟩ := hpp
      simp only [exec, execParse] at h
      obtain ⟨m, tag, hm, rfl⟩ | ⟨e, -, rfl⟩ := finishParse_cases h
      · split at hm
        · rename_i id p hf
          exact .inr ⟨hp, m, tag,
            mergeBody_merged ((frameCheck_ok_iff (frameCheck_sysid hf)).mp hf).2 hm, rfl⟩
        · cases hm
      · exact .inl ⟨_, rfl, rfl, fun _ => rfl⟩
    · obtain ⟨id, hid⟩ : ∃ id, i.inboundId = some id := by
        cases i <;> simp_all [Instr.isParse, Instr.inboundId]
      obtain ⟨p, -, hx⟩ := exec_row i id hid s
      rw [hx] at h
      obtain ⟨m, tag, hm, rfl⟩ | ⟨e, -, rfl⟩ := finishParse_cases h
      · obtain ⟨hb, e⟩ | ⟨-, e⟩ := mergeChecked_cases id p (mergeBody id p s.mirror)
        · exact .inr ⟨hp, m, tag, mergeBody_merged hb (e ▸ hm), rfl⟩
        · rw [e] at hm
          cases hm
      · exact .inl ⟨_, rfl, rfl, fun _ => rfl⟩
  · obtain ⟨x, h1, -⟩ := exec_nonparse i s s (by simpa using hp) rfl
    rw [h1] at h
    obtain ⟨r, -, rfl⟩ | ⟨e, -, rfl⟩ := finish_cases h
    · exact .inl ⟨_, rfl, rfl, fun h => absurd rfl h⟩
    · exact .inl ⟨_, rfl, rfl, fun _ => rfl⟩

/-! ### The frame of a merge -/

theorem Mirror.SameOutside.refl (tag : Tag) (m : Mirror) : Mirror.SameOutside tag m m := by
  constructor <;> intros <;> rfl

/-- A merge writes at most the region its tag names (R33). -/
theorem Merged.sameOutside {m m' : Mirror} {tag : Tag} (h : Merged m m' tag) :
    Mirror.SameOutside tag m m' := by
  cases h
  case progParam =>
    constructor <;> first | (intros; rfl) | rfl | skip
    intro j _ hn
    simp only [Tag.namesEditParam, beq_eq_false_iff_ne] at hn
    exact Mirror.editParam_setEditParam_ne _ _ _ _ hn
  case seqStep =>
    constructor <;> first | (intros; rfl) | rfl | skip
    intro j _ hn
    simp only [Tag.namesEditSeq, beq_eq_false_iff_ne] at hn
    exact Mirror.editSeq_setEditSeq_ne _ _ _ _ hn
  case mainParam =>
    constructor <;> first | (intros; rfl) | rfl | skip
    intro j _ hn
    simp only [Tag.namesMainParam, beq_eq_false_iff_ne] at hn
    exact Mirror.mainParam_setMainParam_ne _ _ _ _ hn
  case editDump =>
    constructor <;> first | (intros; rfl) | rfl | (intro j _ hn; cases hn)
  case mainDump =>
    constructor <;> first | (intros; rfl) | rfl | (intro j _ hn; cases hn)
  case programDump b p u hb hp _ =>
    constructor <;> first | (intros; rfl) | rfl | skip
    · intro b' _ p' hp' hn
      simp only [Tag.namesCellParams, Bool.and_eq_false_iff, beq_eq_false_iff_ne] at hn
      refine Mirror.cellParams_setCellParams_ne _ _ _ _ _ _ fun hc => ?_
      obtain ⟨rfl, rfl⟩ := cellIndex_inj hp' hp hc
      simp at hn
    · intro b' _ p' _ _
      simp
  case nameDump b p u hb hp _ =>
    constructor <;> first | (intros; rfl) | rfl | skip
    · intro b' _ p' _ _
      simp
    · intro b' _ p' hp' hn
      simp only [Tag.namesCellName, Bool.and_eq_false_iff, beq_eq_false_iff_ne] at hn
      refine Mirror.cellName_setCellName_ne _ _ _ _ _ _ fun hc => ?_
      obtain ⟨rfl, rfl⟩ := cellIndex_inj hp' hp hc
      simp at hn
  case waveDump =>
    constructor <;> first | (intros; rfl) | rfl | skip
    intro j _ hn
    simp only [Tag.namesWave, beq_eq_false_iff_ne] at hn
    exact Mirror.wave_setWave_ne _ _ _ _ hn

/-- A merge keeps the mirror's shape (R21). -/
theorem Merged.wf {m m' : Mirror} {tag : Tag} (h : Merged m m' tag) (hm : m.wf) : m'.wf := by
  cases h
  case progParam => exact Mirror.wf_setEditParam hm _ _
  case seqStep => exact Mirror.wf_setEditSeq hm _ _
  case mainParam => exact Mirror.wf_setMainParam hm _ _
  case editDump h => exact Mirror.wf_setEditAll hm h
  case mainDump h => exact Mirror.wf_setMainAll hm h
  case programDump h => exact Mirror.wf_setCellParams hm _ _ (by rintro _ ⟨⟩; exact h)
  case nameDump h => exact Mirror.wf_setCellName hm _ _ h
  case waveDump h => exact Mirror.wf_setWave hm _ (by rintro _ ⟨⟩; exact h)

end Sys2Proof.Machine
end

