-- ==== Sys2Proof/Laws/PerInstr.lean ====
section
/-! SUPPORT. Facts about every operation as syntax, one lemma per constructor. -/

namespace Sys2Proof.Laws

/-- The request that encodes the operation carries a command word that R82 and R83 define. -/
def DefinedWord.Statement (i : Instr) : Prop :=
  ∀ sysid : List Byte, (zeroOperands (encode sysid i).cmd).isSome = true

theorem DefinedWord.nibEnc (v : Byte) :
    DefinedWord.Statement (.nibEnc v) := fun _ => rfl

theorem DefinedWord.nibDec (lo hi : Byte) :
    DefinedWord.Statement (.nibDec lo hi) := fun _ => rfl

theorem DefinedWord.msbPack (u : List Byte) :
    DefinedWord.Statement (.msbPack u) := fun _ => rfl

theorem DefinedWord.msbUnpack (w : List Byte) :
    DefinedWord.Statement (.msbUnpack w) := fun _ => rfl

theorem DefinedWord.strEnc (name : List Nat) :
    DefinedWord.Statement (.strEnc name) := fun _ => rfl

theorem DefinedWord.strDec (b : List Byte) :
    DefinedWord.Statement (.strDec b) := fun _ => rfl

theorem DefinedWord.asmProgParam (index : Nat) (value : Byte) :
    DefinedWord.Statement (.asmProgParam index value) := fun _ => rfl

theorem DefinedWord.asmProgramDump (bank program : Nat) (params seq : List Byte) :
    DefinedWord.Statement (.asmProgramDump bank program params seq) := fun _ => rfl

theorem DefinedWord.asmEditDump (params seq : List Byte) :
    DefinedWord.Statement (.asmEditDump params seq) := fun _ => rfl

theorem DefinedWord.asmCtrlReset :
    DefinedWord.Statement .asmCtrlReset := fun _ => rfl

theorem DefinedWord.asmReqProgram (bank program : Nat) :
    DefinedWord.Statement (.asmReqProgram bank program) := fun _ => rfl

theorem DefinedWord.asmReqEdit :
    DefinedWord.Statement .asmReqEdit := fun _ => rfl

theorem DefinedWord.asmSeqStep (step : Nat) (value : Byte) :
    DefinedWord.Statement (.asmSeqStep step value) := fun _ => rfl

theorem DefinedWord.asmMainParam (index : Nat) (value : Byte) :
    DefinedWord.Statement (.asmMainParam index value) := fun _ => rfl

theorem DefinedWord.asmWaveDump (waveshape : Nat) (pts : List Point) :
    DefinedWord.Statement (.asmWaveDump waveshape pts) := fun _ => rfl

theorem DefinedWord.asmReqWave (waveshape : Nat) :
    DefinedWord.Statement (.asmReqWave waveshape) := fun _ => rfl

theorem DefinedWord.asmReqMain :
    DefinedWord.Statement .asmReqMain := fun _ => rfl

theorem DefinedWord.asmMainDump (params : List Byte) :
    DefinedWord.Statement (.asmMainDump params) := fun _ => rfl

theorem DefinedWord.asmReqName (bank program : Nat) :
    DefinedWord.Statement (.asmReqName bank program) := fun _ => rfl

theorem DefinedWord.asmNameDump (bank program : Nat) (name : List Nat) :
    DefinedWord.Statement (.asmNameDump bank program name) := fun _ => rfl

theorem DefinedWord.asmCtrlStartStop :
    DefinedWord.Statement .asmCtrlStartStop := fun _ => rfl

theorem DefinedWord.asmCtrlShiftOn :
    DefinedWord.Statement .asmCtrlShiftOn := fun _ => rfl

theorem DefinedWord.asmCtrlShiftOff :
    DefinedWord.Statement .asmCtrlShiftOff := fun _ => rfl

theorem DefinedWord.parse (f : List Byte) :
    DefinedWord.Statement (.parse f) := fun _ => rfl

theorem DefinedWord.parseProgParam (index lo hi : Byte) :
    DefinedWord.Statement (.parseProgParam index lo hi) := fun _ => rfl

theorem DefinedWord.parseProgramDump (bank program : Byte) (packed : List Byte) :
    DefinedWord.Statement (.parseProgramDump bank program packed) := fun _ => rfl

theorem DefinedWord.parseEditDump (packed : List Byte) :
    DefinedWord.Statement (.parseEditDump packed) := fun _ => rfl

theorem DefinedWord.parseSeqStep (step lo hi : Byte) :
    DefinedWord.Statement (.parseSeqStep step lo hi) := fun _ => rfl

theorem DefinedWord.parseMainParam (index lo hi : Byte) :
    DefinedWord.Statement (.parseMainParam index lo hi) := fun _ => rfl

theorem DefinedWord.parseWaveDump (waveshape : Byte) (packed : List Byte) :
    DefinedWord.Statement (.parseWaveDump waveshape packed) := fun _ => rfl

theorem DefinedWord.parseMainDump (nibbles : List Byte) :
    DefinedWord.Statement (.parseMainDump nibbles) := fun _ => rfl

theorem DefinedWord.parseNameDump (bank program : Byte) (name : List Byte) :
    DefinedWord.Statement (.parseNameDump bank program name) := fun _ => rfl

end Sys2Proof.Laws
end

