-- ==== Sys2Proof/Tests/Slice0.lean ====
section
/-! SUPPORT. Tests: the ill-formed terms that the shape checks refuse, every operation's
decoding from a request written out from the spec's tables, one-step tests whose expected
values stand in 95_test_vectors.md, and for every statement with hypotheses a witness that
meets them. -/

namespace Sys2Proof.Tests

set_option Elab.async false

open Sys2Proof Sys2Proof.Machine

/-! ### Small states and projections -/

/-- The example prefix of 00_scope.md R6. -/
def sysid : List Byte := [0x01, 0x20, 0x01]

/-- A state after some traffic: a known bank, an edited parameter, a known name and wave. -/
def s1 : State :=
  { State.reset with
    mirror := ((((State.reset.mirror.setEditParam 7 0xA5).setBank (some 3)).setCellName 1 5
      (some (List.replicate 16 0x41))).setCellParams 3 127 (some (List.replicate 192 0xFF))).setWave
        5 (some (List.replicate 128 0x8000)) }

/-- The response a step leaves. -/
def resp (o : Out) : Option Response :=
  match o with
  | .next t => t.response
  | _ => none

/-- What a step leaves of the mirror. -/
def seen {α : Type} (g : Mirror → α) (o : Out) : Option α :=
  match o with
  | .next t => some (g t.mirror)
  | _ => none

/-- A frame under the example prefix. -/
def fr (bs : List Byte) : List Byte := sysid ++ bs

/-- n copies of a byte (the `X×n` of 95_test_vectors.md). -/
def rep (n : Nat) (b : Byte) : List Byte := List.replicate n b

/-- The packed 192 bytes of 0xFF (95_test_vectors.md 2.3). -/
def packedFF : List Byte := rep 27 0x7F ++ rep 189 0x7F ++ [0x07, 0x7F, 0x7F, 0x7F]

/-- `s1` with one event presented. -/
def before (e : Event) : State := { s1 with arrivals := [e] }

/-! ### The shape checks refuse ill-formed terms -/

theorem test_wf_refuses_long_msbPack :
    Instr.wf s1.config (.msbPack (rep 344 0)) = false := by decide +kernel
theorem test_wf_refuses_long_msbUnpack :
    Instr.wf s1.config (.msbUnpack (rep 344 0)) = false := by decide +kernel
theorem test_wf_refuses_short_strDec :
    Instr.wf s1.config (.strDec (rep 15 0)) = false := by decide +kernel
theorem test_wf_refuses_short_params_asmProgramDump :
    Instr.wf s1.config (.asmProgramDump 0 0 (rep 127 0) (rep 64 0)) = false := by decide +kernel
theorem test_wf_refuses_long_seq_asmProgramDump :
    Instr.wf s1.config (.asmProgramDump 0 0 (rep 128 0) (rep 65 0)) = false := by decide +kernel
theorem test_wf_refuses_long_params_asmEditDump :
    Instr.wf s1.config (.asmEditDump (rep 129 0) (rep 64 0)) = false := by decide +kernel
theorem test_wf_refuses_short_seq_asmEditDump :
    Instr.wf s1.config (.asmEditDump (rep 128 0) (rep 63 0)) = false := by decide +kernel
theorem test_wf_refuses_short_asmWaveDump :
    Instr.wf s1.config (.asmWaveDump 0 (List.replicate 127 0)) = false := by decide +kernel
theorem test_wf_refuses_long_asmMainDump :
    Instr.wf s1.config (.asmMainDump (rep 17 0)) = false := by decide +kernel
theorem test_wf_refuses_unclean_parseProgParam :
    Instr.wf s1.config (.parseProgParam 0x80 0 0) = false := by decide +kernel
theorem test_wf_refuses_unclean_parseSeqStep :
    Instr.wf s1.config (.parseSeqStep 0 0x80 0) = false := by decide +kernel
theorem test_wf_refuses_unclean_parseMainParam :
    Instr.wf s1.config (.parseMainParam 0 0 0x80) = false := by decide +kernel
theorem test_wf_refuses_short_parseProgramDump :
    Instr.wf s1.config (.parseProgramDump 0 0 (rep 219 0)) = false := by decide +kernel
theorem test_wf_refuses_unclean_parseProgramDump :
    Instr.wf s1.config (.parseProgramDump 0 0x80 (rep 220 0)) = false := by decide +kernel
theorem test_wf_refuses_long_parseEditDump :
    Instr.wf s1.config (.parseEditDump (rep 221 0)) = false := by decide +kernel
theorem test_wf_refuses_unclean_parseEditDump :
    Instr.wf s1.config (.parseEditDump (rep 219 0 ++ [0x80])) = false := by decide +kernel
theorem test_wf_refuses_short_parseWaveDump :
    Instr.wf s1.config (.parseWaveDump 0 (rep 292 0)) = false := by decide +kernel
theorem test_wf_refuses_unclean_parseWaveDump :
    Instr.wf s1.config (.parseWaveDump 0x80 (rep 293 0)) = false := by decide +kernel
theorem test_wf_refuses_short_parseMainDump :
    Instr.wf s1.config (.parseMainDump (rep 31 0)) = false := by decide +kernel
theorem test_wf_refuses_unclean_parseMainDump :
    Instr.wf s1.config (.parseMainDump (rep 31 0 ++ [0x80])) = false := by decide +kernel
theorem test_wf_refuses_short_parseNameDump :
    Instr.wf s1.config (.parseNameDump 0 0 (rep 15 0x41)) = false := by decide +kernel
theorem test_wf_refuses_unclean_parseNameDump :
    Instr.wf s1.config (.parseNameDump 0x80 0 (rep 16 0x41)) = false := by decide +kernel

/-! ### Decoding: command words bit by bit from 30_encoding.md R81 to R83, frames from R74 -/

theorem test_decode_nibEnc :
    decode sysid ⟨0b0000_00000000, [.byte 0x13]⟩ = .ok (.nibEnc 0x13) := rfl
theorem test_decode_nibDec :
    decode sysid ⟨0b0001_00000000, [.byte 3, .byte 1]⟩ = .ok (.nibDec 3 1) := rfl
theorem test_decode_msbPack :
    decode sysid ⟨0b0010_00000000, [.bytes [0xC0]]⟩ = .ok (.msbPack [0xC0]) := rfl
theorem test_decode_msbUnpack :
    decode sysid ⟨0b0011_00000000, [.bytes [0x01, 0x00]]⟩ = .ok (.msbUnpack [0x01, 0x00]) := rfl
theorem test_decode_strEnc :
    decode sysid ⟨0b0100_00000000, [.codes [0x42, 0xE9]]⟩ = .ok (.strEnc [0x42, 0xE9]) := rfl
theorem test_decode_strDec :
    decode sysid ⟨0b0101_00000000, [.bytes [0x42]]⟩ = .ok (.strDec [0x42]) := rfl
theorem test_decode_asmProgParam :
    decode sysid ⟨0b0110_00000001, [.addr 7, .byte 0xA5]⟩ = .ok (.asmProgParam 7 0xA5) := rfl
theorem test_decode_asmProgramDump :
    decode sysid ⟨0b0110_00000010, [.addr 1, .addr 5, .bytes [1], .bytes [2]]⟩ =
      .ok (.asmProgramDump 1 5 [1] [2]) := rfl
theorem test_decode_asmEditDump :
    decode sysid ⟨0b0110_00000011, [.bytes [1], .bytes [2]]⟩ = .ok (.asmEditDump [1] [2]) := rfl
theorem test_decode_asmCtrlReset :
    decode sysid ⟨0b0110_00000100, []⟩ = .ok .asmCtrlReset := rfl
theorem test_decode_asmReqProgram :
    decode sysid ⟨0b0110_00000101, [.addr 1, .addr 5]⟩ = .ok (.asmReqProgram 1 5) := rfl
theorem test_decode_asmReqEdit :
    decode sysid ⟨0b0110_00000110, []⟩ = .ok .asmReqEdit := rfl
theorem test_decode_asmSeqStep :
    decode sysid ⟨0b0110_00001000, [.addr 63, .byte 0x5A]⟩ = .ok (.asmSeqStep 63 0x5A) := rfl
theorem test_decode_asmMainParam :
    decode sysid ⟨0b0110_00001001, [.addr 0, .byte 19]⟩ = .ok (.asmMainParam 0 19) := rfl
theorem test_decode_asmWaveDump :
    decode sysid ⟨0b0110_00001010, [.addr 1, .points [0x8000]]⟩ =
      .ok (.asmWaveDump 1 [0x8000]) := rfl
theorem test_decode_asmReqWave :
    decode sysid ⟨0b0110_00001011, [.addr 0x60]⟩ = .ok (.asmReqWave 0x60) := rfl
theorem test_decode_asmReqMain :
    decode sysid ⟨0b0110_00001110, []⟩ = .ok .asmReqMain := rfl
theorem test_decode_asmMainDump :
    decode sysid ⟨0b0110_00001111, [.bytes [0x13]]⟩ = .ok (.asmMainDump [0x13]) := rfl
theorem test_decode_asmReqName :
    decode sysid ⟨0b0110_00010000, [.addr 1, .addr 5]⟩ = .ok (.asmReqName 1 5) := rfl
theorem test_decode_asmNameDump :
    decode sysid ⟨0b0110_00010001, [.addr 1, .addr 5, .codes [0x42]]⟩ =
      .ok (.asmNameDump 1 5 [0x42]) := rfl
theorem test_decode_asmCtrlStartStop :
    decode sysid ⟨0b0110_00010010, []⟩ = .ok .asmCtrlStartStop := rfl
theorem test_decode_asmCtrlShiftOn :
    decode sysid ⟨0b0110_00010011, []⟩ = .ok .asmCtrlShiftOn := rfl
theorem test_decode_asmCtrlShiftOff :
    decode sysid ⟨0b0110_00010100, []⟩ = .ok .asmCtrlShiftOff := rfl
theorem test_decode_parse :
    decode sysid ⟨0b0111_00000000, [.bytes [0x01, 0x20, 0x01, 0x07]]⟩ =
      .ok (.parse [0x01, 0x20, 0x01, 0x07]) := rfl
theorem test_decode_parseProgParam :
    decode sysid ⟨0b0111_00000000, [.bytes [0x01, 0x20, 0x01, 0b00000001, 0x07, 0x05, 0x0A]]⟩ =
      .ok (.parseProgParam 0x07 0x05 0x0A) := rfl
theorem test_decode_parseProgramDump :
    decode sysid ⟨0b0111_00000000,
        [.bytes ([0x01, 0x20, 0x01, 0b00000010, 0x01, 0x05] ++ packedFF)]⟩ =
      .ok (.parseProgramDump 0x01 0x05 packedFF) := by decide +kernel
theorem test_decode_parseEditDump :
    decode sysid ⟨0b0111_00000000, [.bytes ([0x01, 0x20, 0x01, 0b00000011] ++ packedFF)]⟩ =
      .ok (.parseEditDump packedFF) := by decide +kernel
theorem test_decode_parseSeqStep :
    decode sysid ⟨0b0111_00000000, [.bytes [0x01, 0x20, 0x01, 0b00001000, 0x3F, 0x0A, 0x05]]⟩ =
      .ok (.parseSeqStep 0x3F 0x0A 0x05) := rfl
theorem test_decode_parseMainParam :
    decode sysid ⟨0b0111_00000000, [.bytes [0x01, 0x20, 0x01, 0b00001001, 0x00, 0x03, 0x01]]⟩ =
      .ok (.parseMainParam 0x00 0x03 0x01) := rfl
theorem test_decode_parseWaveDump :
    decode sysid ⟨0b0111_00000000,
        [.bytes ([0x01, 0x20, 0x01, 0b00001010, 0x7F] ++ rep 292 0x01 ++ [0x02])]⟩ =
      .ok (.parseWaveDump 0x7F (rep 292 0x01 ++ [0x02])) := by decide +kernel
theorem test_decode_parseMainDump :
    decode sysid ⟨0b0111_00000000,
        [.bytes ([0x01, 0x20, 0x01, 0b00001111, 0x03, 0x01] ++ rep 30 0x00)]⟩ =
      .ok (.parseMainDump ([0x03, 0x01] ++ rep 30 0x00)) := by rfl
theorem test_decode_parseNameDump :
    decode sysid ⟨0b0111_00000000,
        [.bytes ([0x01, 0x20, 0x01, 0b00010001, 0x01, 0x05] ++ rep 16 0x41)]⟩ =
      .ok (.parseNameDump 0x01 0x05 (rep 16 0x41)) := by rfl

/-- 95_test_vectors.md 2.9, the command words that are refused. -/
theorem test_decode_refuses :
    decode sysid ⟨0x800, []⟩ = .error .reservedOp ∧
    decode sysid ⟨0xF00, []⟩ = .error .reservedOp ∧
    decode sysid ⟨0x001, [.byte 0]⟩ = .error .kindNotZero ∧
    decode sysid ⟨0x701, [.bytes []]⟩ = .error .kindNotZero ∧
    decode sysid ⟨0x600, []⟩ = .error .unassignedKind ∧
    decode sysid ⟨0x607, []⟩ = .error .unassignedKind ∧
    decode sysid ⟨0x615, []⟩ = .error .unassignedKind := ⟨rfl, rfl, rfl, rfl, rfl, rfl, rfl⟩

/-- The opcode table's numbering: a CMD row and a FRAME row. -/
theorem test_decodeTableWord :
    decodeTableWord 16 0x609 = some (.asmMainParam 0 0) ∧
    decodeTableWord 8 0x09 = some (.parseMainParam 0 0 0) := ⟨rfl, rfl⟩

/-! ### One step each (values from 95_test_vectors.md 2.1 to 2.8) -/

theorem test_nibEnc : resp (exec (.nibEnc 0xA5) s1) = some ⟨.ok, [], .pair 0x5 0xA, .none⟩ := by
  decide +kernel
theorem test_nibDec : resp (exec (.nibDec 1 3) s1) = some ⟨.ok, [], .byte 0x31, .none⟩ := by
  decide +kernel
theorem test_nibDec_range :
    resp (exec (.nibDec 0 16) s1) = some ⟨.range, [0, 16], .none, .none⟩ := by decide +kernel
theorem test_msbPack : resp (exec (.msbPack [0x01, 0x82, 0x03]) s1) =
    some ⟨.ok, [], .bytes [0x02, 0x01, 0x02, 0x03], .none⟩ := by decide +kernel
theorem test_msbPack_two_groups : resp (exec (.msbPack (rep 8 0xFF)) s1) =
    some ⟨.ok, [], .bytes (rep 8 0x7F ++ [0x01, 0x7F]), .none⟩ := by decide +kernel
theorem test_msbUnpack_ignores_unused_flags : resp (exec (.msbUnpack [0x78, 0x05]) s1) =
    some ⟨.ok, [], .bytes [0x05], .none⟩ := by decide +kernel
theorem test_msbUnpack_keeps_data_bit :
    resp (exec (.msbUnpack [0x02, 0x85, 0x02, 0x03]) s1) =
      some ⟨.ok, [], .bytes [0x85, 0x82, 0x03], .none⟩ := by decide +kernel
theorem test_strEnc : resp (exec (.strEnc [0x42, 0x41, 0x53, 0x53]) s1) =
    some ⟨.ok, [], .bytes ([0x42, 0x41, 0x53, 0x53] ++ rep 12 0x20), .none⟩ := by decide +kernel
theorem test_strEnc_length_first : resp (exec (.strEnc (List.replicate 17 0xE9)) s1) =
    some ⟨.overflow, [17], .none, .none⟩ := by decide +kernel
theorem test_strDec :
    resp (exec (.strDec ([0x1F, 0x20, 0x7E, 0x7F, 0x80, 0xFF] ++ rep 10 0x20)) s1) =
      some ⟨.ok, [], .bytes ([0x20, 0x20, 0x7E, 0x20, 0x20, 0x20] ++ rep 10 0x20), .none⟩ := by
  decide +kernel
theorem test_strDec_refused :
    resp (exec (.strDec (rep 15 0)) s1) = some ⟨.refused, [], .none, .none⟩ := by decide +kernel
theorem test_asmProgParam : resp (exec (.asmProgParam 7 0xA5) s1) =
    some ⟨.ok, [], .frame (fr [0x01, 0x07, 0x05, 0x0A]), .none⟩ := by decide +kernel
theorem test_asmProgParam_range : resp (exec (.asmProgParam 128 0) s1) =
    some ⟨.range, [128], .none, .none⟩ := by decide +kernel
theorem test_asmProgramDump : resp (exec (.asmProgramDump 1 5 (rep 128 0) (rep 64 0)) s1) =
    some ⟨.ok, [], .frame (fr ([0x02, 0x01, 0x05] ++ rep 220 0)), .none⟩ := by decide +kernel
theorem test_asmProgramDump_range : resp (exec (.asmProgramDump 4 128 (rep 128 0) (rep 64 0)) s1) =
    some ⟨.range, [4], .none, .none⟩ := by decide +kernel
theorem test_asmEditDump : resp (exec (.asmEditDump (rep 128 0xFF) (rep 64 0xFF)) s1) =
    some ⟨.ok, [], .frame (fr ([0x03] ++ packedFF)), .none⟩ := by decide +kernel
theorem test_asmCtrlReset :
    resp (exec .asmCtrlReset s1) = some ⟨.ok, [], .frame (fr [0x04]), .none⟩ := by decide +kernel
theorem test_asmReqProgram : resp (exec (.asmReqProgram 3 127) s1) =
    some ⟨.ok, [], .frame (fr [0x05, 0x03, 0x7F]), .none⟩ := by decide +kernel
theorem test_asmReqEdit :
    resp (exec .asmReqEdit s1) = some ⟨.ok, [], .frame (fr [0x06]), .none⟩ := by decide +kernel
theorem test_asmSeqStep : resp (exec (.asmSeqStep 63 0x5A) s1) =
    some ⟨.ok, [], .frame (fr [0x08, 0x3F, 0x0A, 0x05]), .none⟩ := by decide +kernel
theorem test_asmSeqStep_range :
    resp (exec (.asmSeqStep 64 0) s1) = some ⟨.range, [64], .none, .none⟩ := by decide +kernel
theorem test_asmMainParam : resp (exec (.asmMainParam 0 19) s1) =
    some ⟨.ok, [], .frame (fr [0x09, 0x00, 0x03, 0x01]), .none⟩ := by decide +kernel
theorem test_asmMainParam_range :
    resp (exec (.asmMainParam 16 0) s1) = some ⟨.range, [16], .none, .none⟩ := by decide +kernel
theorem test_asmWaveDump : resp (exec
      (.asmWaveDump 0 ([0x8000, 0x0080] ++ List.replicate 126 0x0000)) s1) =
    some ⟨.ok, [], .frame (fr ([0x0A, 0x00, 0x06] ++ rep 292 0)), .none⟩ := by decide +kernel
theorem test_asmReqWave : resp (exec (.asmReqWave 0x60) s1) =
    some ⟨.ok, [], .frame (fr [0x0B, 0x60]), .none⟩ := by decide +kernel
theorem test_asmReqMain :
    resp (exec .asmReqMain s1) = some ⟨.ok, [], .frame (fr [0x0E]), .none⟩ := by decide +kernel
theorem test_asmMainDump : resp (exec (.asmMainDump ([0x13] ++ rep 15 0)) s1) =
    some ⟨.ok, [], .frame (fr ([0x0F, 0x03, 0x01] ++ rep 30 0)), .none⟩ := by decide +kernel
theorem test_asmReqName : resp (exec (.asmReqName 1 5) s1) =
    some ⟨.ok, [], .frame (fr [0x10, 0x01, 0x05]), .none⟩ := by decide +kernel
theorem test_asmNameDump : resp (exec (.asmNameDump 1 5 [0x42, 0x41, 0x53, 0x53]) s1) =
    some ⟨.ok, [], .frame (fr ([0x11, 0x01, 0x05, 0x42, 0x41, 0x53, 0x53] ++ rep 12 0x20)),
      .none⟩ := by decide +kernel
theorem test_asmNameDump_bank_first :
    resp (exec (.asmNameDump 4 5 (List.replicate 17 0x41)) s1) =
      some ⟨.range, [4], .none, .none⟩ := by decide +kernel
theorem test_asmCtrlStartStop :
    resp (exec .asmCtrlStartStop s1) = some ⟨.ok, [], .frame (fr [0x12]), .none⟩ := by decide +kernel
theorem test_asmCtrlShiftOn :
    resp (exec .asmCtrlShiftOn s1) = some ⟨.ok, [], .frame (fr [0x13]), .none⟩ := by decide +kernel
theorem test_asmCtrlShiftOff :
    resp (exec .asmCtrlShiftOff s1) = some ⟨.ok, [], .frame (fr [0x14]), .none⟩ := by decide +kernel
theorem test_parse_foreign : resp (exec (.parse [0x01, 0x20, 0x02, 0x09, 0x00, 0x03, 0x01]) s1) =
    some ⟨.foreign, [], .none, .none⟩ := by decide +kernel
theorem test_parse_unclean : resp (exec (.parse (fr [0x09, 0x00, 0x83, 0x01])) s1) =
    some ⟨.unrecognized, [0x09], .none, .none⟩ := by decide +kernel
theorem test_parseProgParam :
    seen (fun m => m.editParam 127) (exec (.parseProgParam 0x7F 0x0F 0x0F) s1) = some 0xFF := by
  decide +kernel
theorem test_parseProgParam_range : resp (exec (.parseProgParam 0x07 0x05 0x7F) s1) =
    some ⟨.range, [0x05, 0x7F], .none, .none⟩ := by decide +kernel
theorem test_parseProgramDump :
    seen (fun m => (m.cellParams 1 5, m.cellName 1 5, m.editParam 7))
        (exec (.parseProgramDump 0x01 0x05 (rep 216 0 ++ [0x79, 0, 0, 0])) s1) =
      some (some (rep 189 0 ++ [0x80, 0, 0]), some (rep 16 0x41), 0xA5) := by decide +kernel
theorem test_parseProgramDump_range : resp (exec (.parseProgramDump 0x04 0x05 (rep 220 0)) s1) =
    some ⟨.range, [4], .none, .none⟩ := by decide +kernel
theorem test_parseEditDump :
    seen (fun m => (m.edit.param, m.edit.seq)) (exec (.parseEditDump packedFF) s1) =
      some (rep 128 0xFF, rep 64 0xFF) := by decide +kernel
theorem test_parseSeqStep :
    seen (fun m => m.editSeq 63) (exec (.parseSeqStep 0x3F 0x0A 0x05) s1) = some 0x5A := by
  decide +kernel
theorem test_parseSeqStep_range : resp (exec (.parseSeqStep 0x40 0x00 0x00) s1) =
    some ⟨.range, [0x40], .none, .none⟩ := by decide +kernel
theorem test_parseMainParam :
    seen (fun m => m.main.param) (exec (.parseMainParam 0x00 0x03 0x01) s1) =
      some ([19] ++ rep 15 0) := by decide +kernel
theorem test_parseMainParam_range : resp (exec (.parseMainParam 0x10 0x03 0x01) s1) =
    some ⟨.range, [0x10], .none, .none⟩ := by decide +kernel
theorem test_parseWaveDump : seen (fun m => (m.wave 0x7F, m.wave 5))
      (exec (.parseWaveDump 0x7F ([0x06] ++ rep 292 0)) s1) =
    some (some ([0x8000, 0x0080] ++ List.replicate 126 0),
      some (List.replicate 128 0x8000)) := by decide +kernel
theorem test_parseMainDump : seen (fun m => (m.main.param, m.main.bank))
      (exec (.parseMainDump ([0x03, 0x01] ++ rep 30 0)) s1) =
    some ([0x13] ++ rep 15 0, some 3) := by decide +kernel
theorem test_parseMainDump_bad_last_nibble :
    seen (fun m => m.main.param) (exec (.parseMainDump ([0x03, 0x01] ++ rep 29 0 ++ [0x10])) s1) =
      some (rep 16 0) := by decide +kernel
theorem test_parseNameDump : seen (fun m => (m.cellName 2 6, m.cellParams 2 6))
      (exec (.parseNameDump 0x02 0x06 ([0x41, 0x00, 0x7F] ++ rep 13 0x20)) s1) =
    some (some ([0x41] ++ rep 15 0x20), none) := by decide +kernel
theorem test_parseNameDump_range : resp (exec (.parseNameDump 0x04 0x05 (rep 16 0x41)) s1) =
    some ⟨.range, [4], .none, .none⟩ := by decide +kernel

/-- 95_test_vectors.md 2.9, last row, as a step from the port. -/
theorem test_step_command :
    resp (step (before (.command ⟨0x609, [.addr 0, .byte 19]⟩))) =
      some ⟨.ok, [], .frame (fr [0x09, 0x00, 0x03, 0x01]), .none⟩ := by decide +kernel
/-- The first step after reset runs the instruction that `withFetchWord` presents. -/
theorem test_step_withFetchWord :
    resp (step (State.reset.withFetchWord 16 0x60E)) =
      some ⟨.ok, [], .frame (fr [0x0E]), .none⟩ := by decide +kernel
theorem test_step_envWrite_illTyped :
    step (before (.envWrite (.editSeq 64 0))) = .fault .illTypedEnvWrite := rfl

/-! ### Witnesses: states and operands that meet the hypotheses of each statement -/

/-- The shape that the statements assume holds of a state other than reset. -/
theorem witness_wf : s1.wf := by decide +kernel

/-- Copies of a wire byte are wire bytes. -/
theorem rep_wire (n : Nat) {v : Byte} (h : v.toNat < 128) : ∀ b ∈ rep n v, b.toNat < 128 :=
  fun _ hb => List.eq_of_mem_replicate hb ▸ h

/-- R101's two clauses at the edge: 15 is a nibble, 16 is none. -/
theorem witness_NibDecJoinsNibblesOrAnswersRange :
    ((15 : Byte).toNat < 16 ∧ (15 : Byte).toNat < 16) ∧
      (16 ≤ (16 : Byte).toNat ∨ 16 ≤ (0 : Byte).toNat) ∧
      (16 ≤ (0 : Byte).toNat ∨ 16 ≤ (16 : Byte).toNat) := by decide

theorem witness_NibbleCodecRoundTrips : (0 : Byte).toNat < 16 ∧ (15 : Byte).toNat < 16 := by decide

/-- The longest operand, and the last byte of a full group. -/
theorem witness_MsbPackLeadsEachGroupWithItsTopBits :
    (rep 343 0x80).length ≤ s1.config.maxSeqLen ∧ 6 < 7 ∧ 7 * 48 + 6 < (rep 343 0x80).length := by
  decide +kernel

/-- The empty sequence; flag bit 7 of a full group; flag bit 1 of a group of one byte. -/
theorem witness_MsbPackLeavesUnusedFlagBitsClear :
    ([] : List Byte).length ≤ s1.config.maxSeqLen ∧ (rep 7 0x80).length ≤ s1.config.maxSeqLen ∧
      (rep 8 0x80).length ≤ s1.config.maxSeqLen ∧
      (7 * 0 < (rep 7 0x80).length ∧ (rep 7 0x80).length ≤ 7 * 0 + 7) ∧
      7 * 1 < (rep 8 0x80).length ∧ (rep 8 0x80).length ≤ 7 * 1 + 1 := by decide +kernel

/-- 344 bytes are refused, 343 are not; the last byte of a full group is there. -/
theorem witness_MsbUnpackRestoresTopBits :
    s1.config.maxSeqLen < (rep 344 0).length ∧ (rep 343 0).length ≤ s1.config.maxSeqLen ∧
      6 < 7 ∧ 8 * 41 + 1 + 6 < (rep 343 0).length := by decide +kernel

/-- 300 bytes pack to 343. -/
theorem witness_MsbUnpackInvertsPack :
    (rep 300 0xFF).length + ((rep 300 0xFF).length + 6) / 7 ≤ s1.config.maxSeqLen := by
  decide +kernel

theorem witness_MsbPackInvertsUnpackOnCanonical :
    ([0x01, 0x00] : List Byte).length ≤ s1.config.maxSeqLen ∧ packedCanonical [0x01, 0x00] := by
  refine ⟨by decide +kernel, by decide, by decide, fun k _ hk => ?_⟩
  have h8 : ∀ j < 8, 2 % 8 - 1 ≤ j → (1 : Byte).getLsbD j = false := by decide
  by_cases h : k < 8
  · exact h8 k h hk
  · exact BitVec.getLsbD_of_ge _ _ (by omega)

/-- A full name of codes 127, and one that is padded. -/
theorem witness_StrEncPadsNameToSixteenBytes :
    (List.replicate 16 127).length ≤ 16 ∧ (∀ c ∈ List.replicate 16 127, c ≤ 127) ∧
      15 < (List.replicate 16 127).length ∧
      ([0x41] : List Nat).length ≤ 16 ∧ (∀ c ∈ [0x41], c ≤ 127) ∧ ([0x41] : List Nat).length ≤ 1 := by
  decide

theorem witness_LongNamesAnswerOverflow :
    16 < (List.replicate 17 0x41).length ∧ 3 < 4 ∧ 127 < 128 := by decide

theorem witness_NonAsciiNamesAnswerRange :
    (List.replicate 14 127 ++ 128 :: [0xE9]).length ≤ 16 ∧
      (∀ d ∈ List.replicate 14 127, d ≤ 127) ∧ 127 < 128 := by decide

theorem witness_StrDecReplacesUnprintableBytes :
    (rep 15 0).length ≠ 16 ∧ (rep 17 0).length ≠ 16 ∧ (rep 16 0).length = 16 := by decide

theorem witness_PrintableNamesRoundTrip :
    ([32, 126] : List Nat).length ≤ 16 ∧ ∀ c ∈ [32, 126], 32 ≤ c ∧ c ≤ 126 := by decide

theorem witness_WrongOperandShapesAreRefused :
    ((Instr.strDec (rep 17 0)).inboundId = none ∧ (Instr.strDec (rep 17 0)).wf s1.config = false) ∧
      (Instr.msbPack (rep 344 0)).inboundId = none ∧
      (Instr.msbPack (rep 344 0)).wf s1.config = false := by decide +kernel

/-- The last legal and the first illegal index of each update. -/
theorem witness_AsmUpdatesBuildTheirFrames :
    (127 < 128 ∧ 63 < 64 ∧ 15 < 16) ∧ 128 ≤ 128 ∧ 64 ≤ 64 ∧ 16 ≤ 16 := by decide

theorem witness_AsmSnapshotDumpsPackTheSnapshot :
    s1.config.wf ∧ (rep 128 0xFF).length = 128 ∧ (rep 64 0xFF).length = 64 ∧
      (3 < 4 ∧ 127 < 128) ∧ 4 ≤ 4 ∧ 3 < 4 ∧ 128 ≤ 128 := ⟨witness_wf.1, by decide +kernel⟩

theorem witness_AsmWaveDumpPacksPointsLowByteFirst :
    s1.config.wf ∧ (List.replicate 128 (0xFF7D : Point)).length = 128 ∧ 127 < 128 ∧ 128 ≤ 128 :=
  ⟨witness_wf.1, by decide +kernel⟩

theorem witness_AsmMainDumpNibbleEncodesParameters : (rep 16 0xFF).length = 16 := by decide

/-- A full name, a long one, one with a code above 127, and the addresses at their edges. -/
theorem witness_AsmNameDumpCarriesTheEncodedName :
    (3 < 4 ∧ 127 < 128 ∧ (List.replicate 16 127).length ≤ 16 ∧
      ∀ c ∈ List.replicate 16 127, c ≤ 127) ∧
    (16 < (List.replicate 17 0x41).length ∨ ∃ c ∈ List.replicate 17 0x41, 127 < c) ∧
    (16 < ([128] : List Nat).length ∨ ∃ c ∈ ([128] : List Nat), 127 < c) ∧
    4 ≤ 4 ∧ 128 ≤ 128 := by decide

theorem witness_AsmRequestsCarryTheirAddresses :
    (3 < 4 ∧ 127 < 128) ∧ 127 < 128 ∧ 4 ≤ 4 ∧ (3 < 4 ∧ 128 ≤ 128) ∧ 128 ≤ 128 := by decide

theorem witness_AssembledFramesKeepTheWireFormat :
    s1.config.wf ∧ ∃ t, exec (.asmReqName 3 127) s1 = .next t ∧
      t.response = some ⟨.ok, [], .frame (fr [0x10, 0x03, 0x7F]), .none⟩ :=
  ⟨witness_wf.1, _, rfl, rfl⟩

/-- An unassigned identifier, a request's, and an inbound one one byte short and long. -/
theorem witness_ParseTurnsAwayUnknownKindsAndLengths :
    s1.config.sysid.length = 3 ∧
      (0x07 : Byte) ∉ ([0x01, 0x02, 0x03, 0x08, 0x09, 0x0A, 0x0F, 0x11] : List Byte) ∧
      (0x05 : Byte) ∉ ([0x01, 0x02, 0x03, 0x08, 0x09, 0x0A, 0x0F, 0x11] : List Byte) ∧
      ((0x0A : Byte), 294) ∈ ([(0x01, 3), (0x02, 222), (0x03, 220), (0x08, 3), (0x09, 3),
        (0x0A, 294), (0x0F, 32), (0x11, 18)] : List (Byte × Nat)) ∧
      (rep 293 0).length ≠ 294 ∧ (rep 295 0).length ≠ 294 := by decide +kernel

/-- Two bytes; a wrong third byte; the bare prefix; 0x80 as identifier and as payload. -/
theorem witness_ParseTurnsAwayForeignAndUncleanFrames :
    s1.config.sysid.length = 3 ∧ ([0x01, 0x20] : List Byte).length < 3 ∧
      ([0x01, 0x20, 0x02, 0x09] : List Byte).take 3 ≠ s1.config.sysid ∧
      [0x01, 0x20, 0x01] = s1.config.sysid ∧
      (fr [0x80] = s1.config.sysid ++ 0x80 :: [] ∧ ∃ b ∈ ([0x80] : List Byte), 128 ≤ b.toNat) ∧
      fr [0x09, 0x80] = s1.config.sysid ++ 0x09 :: [0x80] ∧
      ∃ b ∈ ([0x09, 0x80] : List Byte), 128 ≤ b.toNat := by decide +kernel

theorem witness_ParseRowsAgreeWithParse :
    decode s1.config.sysid ⟨0x700, [.bytes (fr [0x09, 0x00, 0x03, 0x01])]⟩ =
      .ok (.parseMainParam 0x00 0x03 0x01) := rfl

theorem witness_ParseRowsTurnAwayIllFormedPayloads :
    (Instr.parseNameDump 0 0 (rep 17 0x41)).inboundId = some 0x11 ∧
      (Instr.parseNameDump 0 0 (rep 17 0x41)).wf s1.config = false := by decide +kernel

/-- The last index, the largest nibble and the first byte that is no nibble. -/
theorem witness_ParseProgParamSetsOneParameter :
    s1.wf ∧ (127 : Byte).toNat < 128 ∧ (15 : Byte).toNat < 128 ∧ (16 : Byte).toNat < 128 ∧
      ((15 : Byte).toNat < 16 ∧ (15 : Byte).toNat < 16) ∧
      (16 ≤ (16 : Byte).toNat ∨ 16 ≤ (15 : Byte).toNat) :=
  ⟨witness_wf, by decide⟩

theorem witness_ParseSeqStepSetsOneStep :
    s1.wf ∧ (63 : Byte).toNat < 64 ∧ ((15 : Byte).toNat < 16 ∧ (0 : Byte).toNat < 16) ∧
      (64 ≤ (64 : Byte).toNat ∧ (64 : Byte).toNat < 128) ∧
      (16 ≤ (15 : Byte).toNat ∨ 16 ≤ (16 : Byte).toNat) :=
  ⟨witness_wf, by decide⟩

theorem witness_ParseMainParamSetsOneParameter :
    s1.wf ∧ (15 : Byte).toNat < 16 ∧ ((0 : Byte).toNat < 16 ∧ (15 : Byte).toNat < 16) ∧
      (16 ≤ (16 : Byte).toNat ∧ (16 : Byte).toNat < 128) ∧
      (16 ≤ (127 : Byte).toNat ∨ 16 ≤ (0 : Byte).toNat) :=
  ⟨witness_wf, by decide⟩

theorem witness_ParseProgramDumpSetsCellParams :
    s1.wf ∧ (127 : Byte).toNat < 128 ∧ (∀ b ∈ rep 220 0x7F, b.toNat < 128) ∧
      (rep 220 0x7F).length = 220 ∧ (3 : Byte).toNat < 4 ∧
      4 ≤ (4 : Byte).toNat ∧ (4 : Byte).toNat < 128 :=
  ⟨witness_wf, by decide, rep_wire _ (by decide), by decide +kernel⟩

theorem witness_ParseEditDumpReplacesTheEditBuffer :
    s1.wf ∧ (∀ b ∈ rep 220 0x7F, b.toNat < 128) ∧ (rep 220 0x7F).length = 220 ∧
      127 < 128 ∧ 63 < 64 :=
  ⟨witness_wf, rep_wire _ (by decide), by decide +kernel⟩

theorem witness_ParseWaveDumpSetsOneWaveshape :
    s1.wf ∧ (127 : Byte).toNat < 128 ∧ (∀ b ∈ rep 293 0x7F, b.toNat < 128) ∧
      (rep 293 0x7F).length = 293 :=
  ⟨witness_wf, by decide, rep_wire _ (by decide), by decide +kernel⟩

/-- All nibbles at 15; and the last pair, then the first, with a 16. -/
theorem witness_ParseMainDumpSetsAllOrNothing :
    s1.wf ∧ ((∀ b ∈ rep 32 15, b.toNat < 16) ∧ (rep 32 15).length = 32) ∧
      ((∀ b ∈ rep 31 0 ++ [16], b.toNat < 128) ∧ (rep 31 0 ++ [16]).length = 32 ∧
        (∀ k, k < 2 * 15 → ((rep 31 0 ++ [16]).getD k 0).toNat < 16) ∧
        (16 ≤ ((rep 31 0 ++ [16]).getD (2 * 15) 0).toNat ∨
          16 ≤ ((rep 31 0 ++ [16]).getD (2 * 15 + 1) 0).toNat)) ∧
      16 ≤ ((16 :: rep 31 0).getD (2 * 0) 0).toNat :=
  ⟨witness_wf, by decide +kernel⟩

theorem witness_ParseNameDumpSetsCellName :
    s1.wf ∧ (127 : Byte).toNat < 128 ∧ (∀ b ∈ rep 16 0x7F, b.toNat < 128) ∧
      (rep 16 0x7F).length = 16 ∧ (3 : Byte).toNat < 4 ∧
      4 ≤ (4 : Byte).toNat ∧ (4 : Byte).toNat < 128 :=
  ⟨witness_wf, by decide +kernel⟩

/-- An accepted frame and a rejected one. -/
theorem witness_ReapplyingAFrameChangesNothing :
    (∃ t, exec (.parse (fr [0x09, 0x0F, 0x0F, 0x0F])) s1 = .next t) ∧
      ∃ t, exec (.parse (fr [0x05, 0x01, 0x05])) s1 = .next t :=
  ⟨⟨_, rfl⟩, _, rfl⟩

/-- A receiver whose state differs from the sender's, and each update at its last index. -/
theorem witness_AssembledUpdatesParseBack :
    s1.config.wf ∧ s1.wf ∧ s1.config = State.reset.config ∧
      (∃ t f, t.response = some ⟨.ok, [], .frame f, .none⟩ ∧
        exec (.asmProgParam 127 0xFF) State.reset = .next t) ∧
      (∃ t f, t.response = some ⟨.ok, [], .frame f, .none⟩ ∧
        exec (.asmSeqStep 63 0xFF) State.reset = .next t) ∧
      ∃ t f, t.response = some ⟨.ok, [], .frame f, .none⟩ ∧
        exec (.asmMainParam 15 0xFF) State.reset = .next t :=
  ⟨witness_wf.1, witness_wf, rfl, ⟨_, _, rfl, rfl⟩, ⟨_, _, rfl, rfl⟩, _, _, rfl, rfl⟩

/-- What an operation's response shows of its outcome. -/
theorem answers_of {o : Out} {r : Response} (h : resp o = some r) :
    ∃ t, o = .next t ∧ t.response = some r := by
  cases o with
  | next t => exact ⟨t, rfl, h⟩
  | fault _ => cases h
  | refused _ => cases h

theorem witness_AssembledPackedDumpsParseBack :
    s1.config.wf ∧ s1.wf ∧ s1.config = State.reset.config ∧
      (∃ t, exec (.asmProgramDump 3 127 (rep 128 0xFF) (rep 64 0xFF)) State.reset = .next t ∧
        t.response = some ⟨.ok, [], .frame (fr ([0x02, 0x03, 0x7F] ++ packedFF)), .none⟩) ∧
      (∃ t, exec (.asmEditDump (rep 128 0xFF) (rep 64 0xFF)) State.reset = .next t ∧
        t.response = some ⟨.ok, [], .frame (fr ([0x03] ++ packedFF)), .none⟩) ∧
      ∃ t, exec (.asmWaveDump 127 (List.replicate 128 0)) State.reset = .next t ∧
        t.response = some ⟨.ok, [], .frame (fr ([0x0A, 0x7F] ++ rep 293 0)), .none⟩ :=
  ⟨witness_wf.1, witness_wf, rfl, answers_of (by decide +kernel), answers_of (by decide +kernel),
    answers_of (by decide +kernel)⟩

theorem witness_AssembledMainAndNameDumpsParseBack :
    s1.config.wf ∧ s1.wf ∧ s1.config = State.reset.config ∧
      (∃ t, exec (.asmMainDump (rep 16 0xFF)) State.reset = .next t ∧
        t.response = some ⟨.ok, [], .frame (fr ([0x0F] ++ rep 32 0x0F)), .none⟩) ∧
      ∃ t, exec (.asmNameDump 3 127 (List.replicate 16 0x07)) State.reset = .next t ∧
        t.response = some ⟨.ok, [], .frame (fr ([0x11, 0x03, 0x7F] ++ rep 16 0x07)), .none⟩ :=
  ⟨witness_wf.1, witness_wf, rfl, answers_of (by decide +kernel), answers_of (by decide +kernel)⟩

theorem witness_DecodeInvertsEncode :
    Config.default.wf ∧
      (Instr.parseNameDump 0x7F 0x7F (rep 16 0x7F)).wf Config.default = true ∧
      (∀ f, Instr.parseNameDump 0x7F 0x7F (rep 16 0x7F) ≠ .parse f) ∧
      (Instr.asmNameDump 4096 4096 [4096]).wf Config.default = true ∧
      ∀ f, Instr.asmNameDump 4096 4096 [4096] ≠ .parse f :=
  ⟨witness_wf.1, by decide +kernel, by simp, rfl, by simp⟩

theorem witness_EncodeInvertsDecode :
    decode sysid ⟨0x700, [.bytes (fr [0x08, 0x3F, 0x0A, 0x05])]⟩ =
      .ok (.parseSeqStep 0x3F 0x0A 0x05) := rfl

/-- An unassigned kind of ASM and the first reserved op. -/
theorem witness_UndefinedCommandWordsAreRejected :
    ((0x600 : CommandWord) ∉ ([0x000, 0x100, 0x200, 0x300, 0x400, 0x500, 0x601, 0x602, 0x603,
      0x604, 0x605, 0x606, 0x608, 0x609, 0x60A, 0x60B, 0x60E, 0x60F, 0x610, 0x611, 0x612, 0x613,
      0x614, 0x700] : List CommandWord)) ∧
    (0x800 : CommandWord) ∉ ([0x000, 0x100, 0x200, 0x300, 0x400, 0x500, 0x601, 0x602, 0x603,
      0x604, 0x605, 0x606, 0x608, 0x609, 0x60A, 0x60B, 0x60E, 0x60F, 0x610, 0x611, 0x612, 0x613,
      0x614, 0x700] : List CommandWord) := by
  simp

theorem witness_StepRunsTheDecodedOperation :
    (before (.command ⟨0x604, []⟩)).arrivals = .command ⟨0x604, []⟩ :: [] ∧
      decode (before (.command ⟨0x604, []⟩)).config.sysid ⟨0x604, []⟩ = .ok .asmCtrlReset :=
  ⟨rfl, rfl⟩

theorem witness_StepRefusesUndefinedRequests :
    (before (.command ⟨0x604, [.byte 0]⟩)).arrivals = .command ⟨0x604, [.byte 0]⟩ :: [] ∧
      decode (before (.command ⟨0x604, [.byte 0]⟩)).config.sysid ⟨0x604, [.byte 0]⟩ =
        .error .operandKinds := ⟨rfl, rfl⟩

theorem witness_StepAlwaysAnswersLawfulClients :
    arrivalsLegal [.command ⟨0x800, []⟩, .envWrite (.editSeq 63 0xFF),
      .envWrite (.cellName 3 127 (some (List.replicate 16 126)))] := by
  intro e he
  simp only [List.mem_cons, List.not_mem_nil, or_false] at he
  rcases he with rfl | rfl | rfl
  · trivial
  · rfl
  · show EnvWrite.legal _ = true
    decide +kernel

/-- The one way to stop. -/
theorem witness_StepStopsOnlyOnIllTypedEnvWrites :
    (before (.envWrite (.editParam 128 0))).arrivals = .envWrite (.editParam 128 0) :: [] ∧
      (EnvWrite.editParam 128 0).legal = false := ⟨rfl, rfl⟩

theorem witness_EnvWritesSetTheirElement :
    s1.mirror.wf ∧
      (127 < 128 ∧ (before (.envWrite (.editParam 127 1))).arrivals =
        .envWrite (.editParam 127 1) :: []) ∧
      (63 < 64 ∧ (before (.envWrite (.editSeq 63 1))).arrivals = .envWrite (.editSeq 63 1) :: []) ∧
      (3 < 4 ∧ 127 < 128 ∧ paramsLegal (some (rep 192 0xFF)) ∧ paramsLegal none) ∧
      (nameLegal (some (rep 16 126)) ∧ nameLegal none) ∧
      (before (.envWrite (.cellParams 3 127 none))).arrivals =
        .envWrite (.cellParams 3 127 none) :: [] ∧
      (before (.envWrite (.cellName 3 127 none))).arrivals =
        .envWrite (.cellName 3 127 none) :: [] ∧
      (before (.envWrite (.bank (some 3)))).arrivals = .envWrite (.bank (some 3)) :: [] ∧
      (before (.envWrite (.program none))).arrivals = .envWrite (.program none) :: [] :=
  ⟨witness_wf.2, ⟨by decide, rfl⟩, ⟨by decide, rfl⟩, by decide +kernel, by decide +kernel,
    rfl, rfl, rfl, rfl⟩

theorem witness_ErrorsChangeNothing :
    ∃ t, exec (.parse (fr [0x08, 0x40, 0x00, 0x00])) s1 = .next t ∧
      t.response = some ⟨.range, [0x40], .none, .none⟩ ∧ Status.range ≠ .ok :=
  ⟨_, rfl, rfl, by decide⟩

theorem witness_OnlyParseWritesAndOnlyItsTag :
    (∃ t, exec (.asmReqWave 127) s1 = .next t ∧ (Instr.asmReqWave 127).isParse = false) ∧
      ∃ t, exec (.parse (fr [0x01, 0x7F, 0x0F, 0x0F])) s1 = .next t :=
  ⟨⟨_, rfl, rfl⟩, _, rfl⟩

/-- Two states that differ in the mirror and agree on the parameters. -/
theorem witness_CodecsAndAssemblerIgnoreTheMirror :
    (Instr.asmMainDump (rep 16 0)).isParse = false ∧ s1.config = State.reset.config ∧
      s1.mirror.editParam 7 ≠ State.reset.mirror.editParam 7 :=
  ⟨rfl, rfl, by decide +kernel⟩

/-- Two states that agree on mirror and parameters and differ in the port. -/
theorem witness_OperationsReadOnlyMirrorAndParameters :
    (before (.command ⟨0x604, []⟩)).mirror = s1.mirror ∧
      (before (.command ⟨0x604, []⟩)).config = s1.config ∧
      (before (.command ⟨0x604, []⟩)).arrivals ≠ s1.arrivals :=
  ⟨rfl, rfl, by decide +kernel⟩

/-- Cell (1, 5) has a known name, cell (3, 127) known params and entry 5 a known wave. -/
theorem witness_KnownEntriesStayKnown :
    (∃ t, exec (.parse (fr ([0x11, 0x01, 0x05] ++ rep 16 0))) s1 = .next t) ∧
      (3 < 4 ∧ 127 < 128 ∧ 5 < 128) ∧ s1.mirror.cellParams 3 127 ≠ none ∧
      s1.mirror.cellName 1 5 ≠ none ∧ s1.mirror.wave 5 ≠ none :=
  ⟨⟨_, rfl⟩, by decide, by decide +kernel, by decide +kernel, by decide +kernel⟩

theorem witness_OnlyTheEnvironmentMovesBankAndProgram :
    (∃ t, step (before (.envWrite (.bank (some 0)))) = .next t ∧
      t.mirror.main.bank ≠ (before (.envWrite (.bank (some 0)))).mirror.main.bank) ∧
      ∃ t, step (before (.envWrite (.program (some 127)))) = .next t ∧
        t.mirror.main.program ≠ (before (.envWrite (.program (some 127)))).mirror.main.program :=
  ⟨⟨_, rfl, by decide +kernel⟩, _, rfl, by decide +kernel⟩

theorem witness_StepKeepsTheParameters :
    ∃ t, step (before (.command ⟨0x604, []⟩)) = .next t := ⟨_, rfl⟩

theorem witness_SchemaLookupsAreInverse :
    Config.default.wf ∧ 127 < 128 ∧ 128 ≤ 128 ∧ 15 < 16 ∧ 16 ≤ 16 ∧
      progIdxOf Config.default 127 = some 127 ∧ mainIdxOf Config.default 15 = some 15 :=
  ⟨witness_wf.1, by decide +kernel⟩

theorem witness_StepKeepsStateWellFormed :
    (before (.envWrite (.cellName 1 5 none))).wf ∧
      ∃ t, step (before (.envWrite (.cellName 1 5 none))) = .next t :=
  ⟨witness_wf, _, rfl⟩

/-- The last index of every region that reset fills. -/
theorem witness_ResetLeavesTheMirrorEmpty :
    127 < 128 ∧ 63 < 64 ∧ 15 < 16 ∧ 3 < 4 := by decide

end Sys2Proof.Tests
end

