-- ==== Sys2Proof/Proofs/State.lean ====
section
/-! The mirror as an operation sees it (10_state.md): which operations write it, what they
leave unchanged (R33), and which do not read it either (R31, R32). -/

namespace Sys2Proof.Machine

/-- An operation that only answers is inside every region's frame: it writes nothing. -/
theorem State.onlyWrites_respond (s : State) (r : Response) (tag : Tag) :
    State.OnlyWrites tag s (s.respond r) where
  config := rfl
  arrivals := rfl
  mirror := Mirror.SameOutside.refl tag s.mirror

/-- Committing one of PARSE's merges writes at most the region of the merge's tag (R33, R55). -/
theorem State.onlyWrites_commit {s : State} {m : Mirror} {tag : Tag}
    (h : Merged s.mirror m tag) : State.OnlyWrites tag s (s.commit m tag) where
  config := rfl
  arrivals := rfl
  mirror := h.sameOutside

/-- The end of a non-writing operation is one response, the same from every state. -/
theorem finish_eq_respond (x : Except Err Result) :
    ∃ r, ∀ s, finish x s = .next (s.respond r) := by
  cases x with
  | ok res => exact ⟨⟨.ok, [], res, .none⟩, fun _ => rfl⟩
  | error e => exact ⟨⟨e.status, e.info, .none, .none⟩, fun _ => rfl⟩

/-- Settles O49 (R33): an operation either only answers, or is PARSE and commits one merge. -/
theorem onlyParseWritesAndOnlyItsTag : Obligations.OnlyParseWritesAndOnlyItsTag := by
  intro i s t h
  obtain ⟨r, rfl, -, -⟩ | ⟨hparse, m, tag, hm, rfl⟩ := exec_cases h
  · exact ⟨fun _ => s.respond_mirror r, r, s.respond_response r, s.onlyWrites_respond r r.tag⟩
  · have not_nonparse : i.isParse ≠ false := by simp [hparse]
    exact ⟨fun hn => absurd hn not_nonparse, _, s.commit_response m tag,
      State.onlyWrites_commit hm⟩

/-- Settles O50 (R31, R32): the end of a codec or assembler operation is fixed by its operands
and the parameters alone, and so is its response. -/
theorem codecsAndAssemblerIgnoreTheMirror : Obligations.CodecsAndAssemblerIgnoreTheMirror := by
  intro i s s' hparse hconfig
  obtain ⟨x, hs, hs'⟩ := exec_nonparse i s s' hparse hconfig
  obtain ⟨r, hr⟩ := finish_eq_respond x
  exact ⟨r, hs.trans (hr s), hs'.trans (hr s')⟩

end Sys2Proof.Machine
end

