-- ==== Sys2Proof/Proofs/Memory.lean ====
section
/-! The packed sequence as it lies in memory (20_memory.md R52; 40_codecs.md R104, R106):
its length, its groups at multiples of 8, and each group's flag byte and data bytes. -/

namespace Sys2Proof.Machine

/-! ### The flag byte -/

/-- A byte's top bit, shifted to place k, is the one bit that can be set there. -/
theorem getLsbD_topBit_shiftLeft (b : Byte) (k i : Nat) :
    ((b >>> 7) <<< k).getLsbD i = (decide (i = k ∧ i < 8) && b.getLsbD 7) := by
  have above : ∀ n, 8 ≤ n → b.getLsbD n = false := fun n => b.getLsbD_of_ge n
  simp only [BitVec.getLsbD_shiftLeft, BitVec.getLsbD_ushiftRight]
  obtain h | rfl | h := Nat.lt_trichotomy i k
  · simp [h, h.ne]
  · simp
  · simp [h.ne', above (7 + (i - k)) (by omega)]

/-- A flag byte filled from place k on has no bit below k, and at each place from k on bit 7
of the data byte of that place, if there is one (R52, D2). -/
theorem flagFrom_getLsbD (bs : List Byte) (k i : Nat) :
    (flagFrom k bs).getLsbD i = (decide (k ≤ i ∧ i < 8) && (bs.getD (i - k) 0).getLsbD 7) := by
  induction bs generalizing k with
  | nil => simp [flagFrom]
  | cons b bs ih =>
    simp only [flagFrom, BitVec.getLsbD_or, getLsbD_topBit_shiftLeft, ih]
    obtain h | rfl | h := Nat.lt_trichotomy i k
    · simp [h.ne, show ¬k ≤ i by omega, show ¬k + 1 ≤ i by omega]
    · simp
    · simp [h.ne', h.le, show k + 1 ≤ i by omega, show i - k = i - (k + 1) + 1 by omega]

/-- Bit k of a flag byte is bit 7 of the group's byte k (R52). -/
theorem flagByte_getLsbD (grp : List Byte) {k : Nat} (h : k < 8) :
    (flagByte grp).getLsbD k = (grp.getD k 0).getLsbD 7 := by
  rw [flagByte, flagFrom_getLsbD]
  simp only [h, Nat.zero_le, true_and, decide_true, Bool.true_and, Nat.sub_zero]

/-! ### The groups -/

/-- R106: every group of up to 7 bytes adds one byte. -/
theorem pack_length (u : List Byte) : (pack u).length = u.length + (u.length + 6) / 7 := by
  induction hn : u.length using Nat.strongRecOn generalizing u with
  | ind n ih =>
    by_cases hu : u = []
    · subst hu hn; rfl
    · have hpos : 0 < u.length := List.length_pos_iff.mpr hu
      rw [pack_group u hu, List.length_append, ih (u.drop 7).length (by simp; omega) _ rfl]
      simp
      omega

/-- Past its first 8 bytes a packed sequence is the rest, packed (R103). -/
theorem pack_drop_group (u : List Byte) : pack (u.drop 7) = (pack u).drop 8 := by
  obtain h | h := Nat.lt_or_ge u.length 7
  · have hlen : (pack u).length ≤ 8 := by rw [pack_length]; omega
    rw [List.drop_eq_nil_of_le h.le, List.drop_eq_nil_of_le hlen, pack_nil]
  · have hne : u ≠ [] := by rintro rfl; simp at h
    have hgrp : (packGroup (u.take 7)).length = 8 := by simp [h]
    rw [pack_group u hne, ← hgrp, List.drop_left]

/-- Wire group g stands at 8g and packs the operand from 7g on (R104). -/
theorem pack_drop (u : List Byte) (g : Nat) : pack (u.drop (7 * g)) = (pack u).drop (8 * g) := by
  induction g generalizing u with
  | zero => rfl
  | succ g ih =>
    calc pack (u.drop (7 * (g + 1)))
        = pack ((u.drop 7).drop (7 * g)) := by rw [List.drop_drop, Nat.mul_succ, Nat.add_comm]
      _ = ((pack u).drop 8).drop (8 * g) := by rw [ih, pack_drop_group]
      _ = (pack u).drop (8 * (g + 1)) := by rw [List.drop_drop, Nat.mul_succ, Nat.add_comm]

/-- A packed sequence starts with the flag byte of its first group (R104). -/
theorem pack_getD_zero (u : List Byte) : (pack u).getD 0 0 = flagByte (u.take 7) := by
  by_cases hu : u = []
  · subst hu; rfl
  · simp [pack_group u hu, packGroup]

/-- The first group's data bytes follow its flag byte, top bits cleared (R104). -/
theorem pack_getElem?_succ (u : List Byte) {k : Nat} (h : k < 7) :
    (pack u)[k + 1]? = u[k]?.map clearTop := by
  by_cases hu : u = []
  · subst hu; rfl
  · have htail : (pack u)[k + 1]? = ((u.take 7).map clearTop ++ pack (u.drop 7))[k]? := by
      rw [pack_group u hu, packGroup, List.cons_append, List.getElem?_cons_succ]
    rw [htail]
    obtain hk | hk := Nat.lt_or_ge k u.length
    · rw [List.getElem?_append_left (by simp; omega), List.getElem?_map,
        List.getElem?_take_of_lt h]
    · rw [List.drop_eq_nil_of_le (by omega), List.take_of_length_le (by omega)]
      simp

/-- The flag byte of group g stands at 8g (R52, R104). -/
theorem pack_getD_flag (u : List Byte) (g : Nat) :
    (pack u).getD (8 * g) 0 = flagByte ((u.drop (7 * g)).take 7) := by
  rw [← pack_getD_zero, pack_drop]
  simp

/-- Byte k of group g stands at 8g + 1 + k, top bit cleared (R104). -/
theorem pack_getElem?_data (u : List Byte) (g : Nat) {k : Nat} (h : k < 7) :
    (pack u)[8 * g + 1 + k]? = u[7 * g + k]?.map clearTop := by
  have hgroup := pack_getElem?_succ (u.drop (7 * g)) h
  rw [pack_drop, List.getElem?_drop, List.getElem?_drop] at hgroup
  rwa [Nat.add_assoc, Nat.add_comm 1 k]

/-! ### The operation -/

/-- Below the reserved ops, an op other than ASM decodes by its own row, its kind being 0x00
(R82). -/
theorem decode_op {sysid : List Byte} {cmd : CommandWord} {ops : List Operand} {op : Nat}
    (hop : opField cmd = op) (hasm : op ≠ 0x6) (hdef : op < 0x8) (hkind : kindField cmd = 0x00) :
    decode sysid ⟨cmd, ops⟩ = decodeOp sysid op ops := by
  rw [decode, hop, if_neg hasm, if_neg (Nat.not_le.mpr hdef), if_neg (not_not.mpr hkind)]

/-- Command word 0x200 is MSB.PACK's (R82, R104). -/
theorem decode_msbPack (sysid u : List Byte) :
    decode sysid ⟨0x200, [.bytes u]⟩ = .ok (.msbPack u) :=
  decode_op (op := 0x2) (by decide) (by decide) (by decide) (by decide)

/-- MSB.PACK answers the packed sequence to an operand that fits (R106). -/
theorem exec_msbPack {u : List Byte} {s : State} (h : u.length ≤ s.config.maxSeqLen) :
    exec (.msbPack u) s = .next (s.answer (.bytes (pack u))) := by
  change execMsbPack u s = _
  simp [execMsbPack, h, pure, Except.pure]

/-- Settles O4 (R52, R104, R106): the answer is the packed sequence, and group g of it holds its
flag byte and its data bytes at fixed places. -/
theorem msbPackLeadsEachGroupWithItsTopBits :
    Obligations.MsbPackLeadsEachGroupWithItsTopBits := by
  intro u s hfit
  refine ⟨decode_msbPack _ u, pack u, exec_msbPack hfit, pack_length u, fun g k hk hin => ⟨?_, ?_⟩⟩
  · rw [pack_getD_flag, flagByte_getLsbD _ (by omega)]
    simp [hk]
  · simp [List.getD, pack_getElem?_data u g hk, hin, clearTop]

end Sys2Proof.Machine
end

/-! The 16-byte name field as STR.ENC writes it (30_encoding.md R77; 40_codecs.md R111): the
characters' codes, then spaces. -/

namespace Sys2Proof.Machine

/-- A name as 16 bytes: its codes, then spaces (R77). -/
def asciiField (name : List Nat) : List Byte :=
  name.map (BitVec.ofNat 8) ++ List.replicate (16 - name.length) 0x20

/-- STR.ENC writes the field of a name that fits and holds only 7-bit codes (R111). -/
theorem strEnc_ok {name : List Nat} (hlen : name.length ≤ 16) (hascii : ∀ c ∈ name, c ≤ 127) :
    strEnc name = .ok (asciiField name) := by
  obtain ⟨hlong, -⟩ | ⟨-, c, hc, hbig, -⟩ | ⟨-, -, hok⟩ := strEnc_cases name
  · omega
  · have := hascii c hc
    omega
  · exact hok

theorem asciiField_length {name : List Nat} (hlen : name.length ≤ 16) :
    (asciiField name).length = 16 := by
  simp [asciiField, Nat.add_sub_of_le hlen]

/-- Within the name the field's byte is the character's code, which 7 bits hold. -/
theorem asciiField_getD_code {name : List Nat} (hascii : ∀ c ∈ name, c ≤ 127) {i : Nat}
    (hi : i < name.length) : ((asciiField name).getD i 0).toNat = name.getD i 0 := by
  have hcode : name[i] ≤ 127 := hascii _ (List.getElem_mem hi)
  have hfits : name[i] < 256 := by omega
  simp [asciiField, List.getD, List.getElem?_append_left, hi, hfits]

/-- From the name's end to place 16 the field's byte is a space. -/
theorem asciiField_getD_pad {name : List Nat} {i : Nat} (hpast : name.length ≤ i) (hi : i < 16) :
    (asciiField name).getD i 0 = 0x20 := by
  have hpad : i - name.length < 16 - name.length := by omega
  simp [asciiField, List.getD, List.getElem?_append_right, hpast, hpad]

/-- Command word 0x400 is STR.ENC's (R82, R111). -/
theorem decode_strEnc (sysid : List Byte) (name : List Nat) :
    decode sysid ⟨0x400, [.codes name]⟩ = .ok (.strEnc name) :=
  decode_op (op := 0x4) (by decide) (by decide) (by decide) (by decide)

/-- STR.ENC answers the bytes of a name that it can encode (R111). -/
theorem exec_strEnc {name : List Nat} {b : List Byte} (h : strEnc name = .ok b) (s : State) :
    exec (.strEnc name) s = .next (s.answer (.bytes b)) := by
  change execStrEnc name s = _
  simp [execStrEnc, h, bind, Except.bind, pure, Except.pure]

/-- Settles O9 (R77, R111): the answer is the name's 16-byte field. -/
theorem strEncPadsNameToSixteenBytes : Obligations.StrEncPadsNameToSixteenBytes := by
  intro name s hlen hascii
  exact ⟨decode_strEnc _ name, asciiField name, exec_strEnc (strEnc_ok hlen hascii) s,
    asciiField_length hlen, fun _ => asciiField_getD_code hascii, fun _ => asciiField_getD_pad⟩

end Sys2Proof.Machine

/-! The nibble codec's two operations (40_codecs.md R100, R101): their command words and what
each answers. -/

namespace Sys2Proof.Machine

/-- Command word 0x000 is NIB.ENC's (R82, R100). -/
theorem decode_nibEnc (sysid : List Byte) (v : Byte) :
    decode sysid ⟨0x000, [.byte v]⟩ = .ok (.nibEnc v) :=
  decode_op (op := 0x0) (by decide) (by decide) (by decide) (by decide)

/-- Command word 0x100 is NIB.DEC's (R82, R101). -/
theorem decode_nibDec (sysid : List Byte) (lo hi : Byte) :
    decode sysid ⟨0x100, [.byte lo, .byte hi]⟩ = .ok (.nibDec lo hi) :=
  decode_op (op := 0x1) (by decide) (by decide) (by decide) (by decide)

/-- NIB.ENC answers the two nibbles of its byte, low nibble first, from every state (R100). -/
theorem exec_nibEnc (v : Byte) (s : State) :
    exec (.nibEnc v) s = .next (s.answer (.pair (lowNibble v) (highNibble v))) := rfl

/-- NIB.DEC answers the byte that two nibbles join to (R101). -/
theorem exec_nibDec_ok {lo hi : Byte} (hlo : lo.toNat < 16) (hhi : hi.toNat < 16) (s : State) :
    exec (.nibDec lo hi) s = .next (s.answer (.byte (joinNibbles lo hi))) := by
  change execNibDec lo hi s = _
  simp only [execNibDec, nibDec_ok hlo hhi, ok_bind, pure, Except.pure, finish_ok]

/-- NIB.DEC answers RANGE with both operands unless both are nibbles (R101). -/
theorem exec_nibDec_range {lo hi : Byte} (h : ¬(lo.toNat < 16 ∧ hi.toNat < 16)) (s : State) :
    exec (.nibDec lo hi) s = .next (s.raise (rangeErr [lo.toNat, hi.toNat])) := by
  change execNibDec lo hi s = _
  simp only [execNibDec, nibDec_error h, error_bind, finish_error]

/-- Settles O1 (R100): the answer is the low and the high nibble. -/
theorem nibEncSplitsByteIntoNibbles : Obligations.NibEncSplitsByteIntoNibbles := by
  intro v s
  exact ⟨decode_nibEnc _ v, lowNibble v, highNibble v, lowNibble_toNat v, highNibble_toNat v,
    exec_nibEnc v s⟩

/-- Settles O2 (R101): the answer is the joined byte for two nibbles, and RANGE as soon as one
operand is none. -/
theorem nibDecJoinsNibblesOrAnswersRange : Obligations.NibDecJoinsNibblesOrAnswersRange := by
  intro lo hi s
  refine ⟨decode_nibDec _ lo hi, fun ⟨hlo, hhi⟩ => ?_, fun hbig => ?_⟩
  · exact ⟨joinNibbles lo hi, joinNibbles_toNat hlo hhi, exec_nibDec_ok hlo hhi s⟩
  · have not_both : ¬(lo.toNat < 16 ∧ hi.toNat < 16) := by omega
    exact exec_nibDec_range not_both s

end Sys2Proof.Machine

/-! The assembler's shared rules (41_assembler.md R130; 30_encoding.md R83): how its command words
decode, what each check of an operation passes on or answers, and the frame of a payload. -/

namespace Sys2Proof.Machine

/-- ASM's op selects the row of the kind (R83). -/
theorem decode_asm {sysid : List Byte} {cmd : CommandWord} {ops : List Operand} {kind : Byte}
    (hop : opField cmd = 0x6) (hkind : kindField cmd = kind) :
    decode sysid ⟨cmd, ops⟩ = decodeAsm kind ops := by
  rw [decode, if_pos hop, hkind]

/-- An operand of the right shape lets the rest of the operation run (R84). -/
theorem finish_checkShape_ok {shape : Bool} (h : shape = true) (x : Except Err Result)
    (s : State) : finish (do checkShape shape; x) s = finish x s := by
  rw [h, checkShape_true, ok_bind]

/-- An address within its range lets the rest of the operation run (R78, R130). -/
theorem finish_checkBelow_ok {limit n : Nat} (h : n < limit) (x : Except Err Result) (s : State) :
    finish (do checkBelow limit n; x) s = finish x s := by
  rw [checkBelow_ok h, ok_bind]

/-- An address outside its range ends the operation with RANGE (R78, R130). -/
theorem finish_checkBelow_range {limit n : Nat} (h : limit ≤ n) (x : Except Err Result)
    (s : State) : finish (do checkBelow limit n; x) s = .next (s.raise (rangeErr [n])) := by
  rw [checkBelow_error h, error_bind, finish_error]

/-- Bank and program within their ranges let the rest of the operation run (R78, R130). -/
theorem finish_checkCell_ok {bank program : Nat} (hbank : bank < 4) (hprogram : program < 128)
    (x : Except Err Result) (s : State) :
    finish (do checkBank bank; checkProgram program; x) s = finish x s :=
  (finish_checkBelow_ok hbank _ s).trans (finish_checkBelow_ok hprogram x s)

/-- Of bank and program the bank is checked first, so a program out of range is answered only
behind a bank within its range (R206). -/
theorem finish_checkCell_program {bank program : Nat} (hbank : bank < 4)
    (hprogram : 128 ≤ program) (x : Except Err Result) (s : State) :
    finish (do checkBank bank; checkProgram program; x) s =
      .next (s.raise (rangeErr [program])) :=
  (finish_checkBelow_ok hbank _ s).trans (finish_checkBelow_range hprogram x s)

/-- The frame of a payload that is address bytes followed by data, grouped as SYSID, header and
data (R70). -/
theorem asmFrame_append (s : State) (id : Byte) (addrs data : List Byte) :
    asmFrame s id (addrs ++ data) = .frame (s.config.sysid ++ id :: addrs ++ data) := by
  simp [asmFrame, frame]

/-! ### Elements that go out as two bytes each -/

section TwoBytes

variable {α : Type} (lo hi : α → Byte)

/-- Of a sequence written as (lo, hi) pairs, element i's low half stands at 2i. -/
theorem flatMap_pair_getElem?_even (xs : List α) (i : Nat) :
    (xs.flatMap fun x => [lo x, hi x])[2 * i]? = xs[i]?.map lo := by
  induction xs generalizing i with
  | nil => rfl
  | cons x xs ih =>
    cases i with
    | zero => rfl
    | succ i => simpa [Nat.mul_succ] using ih i

/-- Of a sequence written as (lo, hi) pairs, element i's high half stands at 2i + 1. -/
theorem flatMap_pair_getElem?_odd (xs : List α) (i : Nat) :
    (xs.flatMap fun x => [lo x, hi x])[2 * i + 1]? = xs[i]?.map hi := by
  induction xs generalizing i with
  | nil => rfl
  | cons x xs ih =>
    cases i with
    | zero => rfl
    | succ i => simpa [Nat.mul_succ] using ih i

end TwoBytes

end Sys2Proof.Machine

/-! The single-parameter updates (41_assembler.md R141 to R143). -/

namespace Sys2Proof.Machine

/-- ASM.PROG_PARAM answers SYSID, 01, the index and the value's nibbles (R141). -/
theorem exec_asmProgParam {index : Nat} (h : index < 128) (value : Byte) (s : State) :
    exec (.asmProgParam index value) s =
      .next (s.answer (asmFrame s 0x01 (addrByte index :: nibPair value))) :=
  finish_checkBelow_ok h _ s

/-- ASM.SEQ_STEP answers SYSID, 08, the step and the value's nibbles (R142). -/
theorem exec_asmSeqStep {step : Nat} (h : step < 64) (value : Byte) (s : State) :
    exec (.asmSeqStep step value) s =
      .next (s.answer (asmFrame s 0x08 (addrByte step :: nibPair value))) :=
  finish_checkBelow_ok h _ s

/-- ASM.MAIN_PARAM answers SYSID, 09, the index and the value's nibbles (R143). -/
theorem exec_asmMainParam {index : Nat} (h : index < 16) (value : Byte) (s : State) :
    exec (.asmMainParam index value) s =
      .next (s.answer (asmFrame s 0x09 (addrByte index :: nibPair value))) :=
  finish_checkBelow_ok h _ s

/-- Settles O15 (R141 to R143): each update has its one address check, then its frame. -/
theorem asmUpdatesBuildTheirFrames : Obligations.AsmUpdatesBuildTheirFrames := by
  intro index value s
  refine ⟨⟨?_, ?_, ?_⟩, ⟨lowNibble value, highNibble value, lowNibble_toNat value,
    highNibble_toNat value, ?_, ?_, ?_⟩, ?_, ?_, ?_⟩
  · exact decode_asm (kind := 0x01) (by decide) (by decide)
  · exact decode_asm (kind := 0x08) (by decide) (by decide)
  · exact decode_asm (kind := 0x09) (by decide) (by decide)
  · exact fun h => exec_asmProgParam h value s
  · exact fun h => exec_asmSeqStep h value s
  · exact fun h => exec_asmMainParam h value s
  all_goals exact fun h => finish_checkBelow_range h _ s

end Sys2Proof.Machine

/-! The packed dumps (41_assembler.md R131 to R133): MSB.PACK of a snapshot or of a waveshape's
points, behind the addresses. -/

namespace Sys2Proof.Machine

/-! ### Snapshots -/

theorem snapshotShape_true {params seq : List Byte} (hparams : params.length = 128)
    (hseq : seq.length = 64) : snapshotShape params seq = true := by
  simp [snapshotShape, hparams, hseq]

/-- A snapshot is 192 bytes (R54). -/
theorem snapshotBytes_length {params seq : List Byte} (hparams : params.length = 128)
    (hseq : seq.length = 64) : (snapshotBytes params seq).length = 192 := by
  simp [snapshotBytes, hparams, hseq]

/-- ASM.EDIT_DUMP answers SYSID, 03 and the packed snapshot (R132). -/
theorem exec_asmEditDump {params seq : List Byte} (hparams : params.length = 128)
    (hseq : seq.length = 64) (s : State) :
    exec (.asmEditDump params seq) s =
      .next (s.answer (asmFrame s 0x03 (pack (snapshotBytes params seq)))) :=
  finish_checkShape_ok (snapshotShape_true hparams hseq) _ s

/-- A program dump's snapshot passes first; then come its addresses and its frame (R131). -/
theorem exec_asmProgramDump_eq (bank program : Nat) {params seq : List Byte}
    (hparams : params.length = 128) (hseq : seq.length = 64) (s : State) :
    exec (.asmProgramDump bank program params seq) s =
      finish (do
        checkBank bank
        checkProgram program
        return asmFrame s 0x02
          ([addrByte bank, addrByte program] ++ pack (snapshotBytes params seq))) s :=
  finish_checkShape_ok (snapshotShape_true hparams hseq) _ s

/-- ASM.PROGRAM_DUMP answers SYSID, 02, bank, program and the packed snapshot (R131). -/
theorem exec_asmProgramDump {bank program : Nat} {params seq : List Byte} (hbank : bank < 4)
    (hprogram : program < 128) (hparams : params.length = 128) (hseq : seq.length = 64)
    (s : State) :
    exec (.asmProgramDump bank program params seq) s =
      .next (s.answer (asmFrame s 0x02
        ([addrByte bank, addrByte program] ++ pack (snapshotBytes params seq)))) :=
  (exec_asmProgramDump_eq bank program hparams hseq s).trans
    (finish_checkCell_ok hbank hprogram _ s)

/-- Settles O16 (R131, R132, R54): both dumps carry what MSB.PACK answers for the snapshot, which
fits every legal MAX_SEQ_LEN. -/
theorem asmSnapshotDumpsPackTheSnapshot : Obligations.AsmSnapshotDumpsPackTheSnapshot := by
  intro bank program params seq s hconfig hparams hseq
  obtain ⟨-, -, hmax, -⟩ := hconfig
  have hlen := snapshotBytes_length hparams hseq
  have checks_addresses := exec_asmProgramDump_eq bank program hparams hseq s
  refine ⟨decode_asm (kind := 0x02) (by decide) (by decide),
    decode_asm (kind := 0x03) (by decide) (by decide),
    ⟨pack (snapshotBytes params seq), by rw [pack_length, hlen], ?_, ?_, fun hbank hprogram => ?_⟩,
    fun hbank => ?_, fun hbank hprogram => ?_⟩
  · exact exec_msbPack (u := snapshotBytes params seq) (by omega)
  · rw [exec_asmEditDump hparams hseq, ← List.nil_append (pack _), asmFrame_append]
    rfl
  · rw [exec_asmProgramDump hbank hprogram hparams hseq, asmFrame_append]
    rfl
  · exact checks_addresses.trans (finish_checkBelow_range hbank _ s)
  · exact checks_addresses.trans (finish_checkCell_program hbank hprogram _ s)

/-! ### Waveshapes -/

/-- Byte 2i of a points sequence is point i's low byte (R50, R133). -/
theorem bytesOfPoints_getD_low {pts : List Point} {i : Nat} (h : i < pts.length) :
    ((bytesOfPoints pts).getD (2 * i) 0).toNat = (pts.getD i 0).toNat % 256 := by
  have hbyte : (bytesOfPoints pts)[2 * i]? = pts[i]?.map (·.setWidth 8) :=
    flatMap_pair_getElem?_even _ _ pts i
  rw [List.getD_eq_getElem?_getD, hbyte]
  simp [h]

/-- Byte 2i + 1 of a points sequence is point i's high byte (R50, R133). -/
theorem bytesOfPoints_getD_high {pts : List Point} {i : Nat} (h : i < pts.length) :
    ((bytesOfPoints pts).getD (2 * i + 1) 0).toNat = (pts.getD i 0).toNat / 256 := by
  have hbyte : (bytesOfPoints pts)[2 * i + 1]? =
      pts[i]?.map fun pt : Point => (pt >>> 8).setWidth 8 := flatMap_pair_getElem?_odd _ _ pts i
  have hfits : pts[i].toNat / 256 < 256 := by omega
  rw [List.getD_eq_getElem?_getD, hbyte]
  simp [h, Nat.shiftRight_eq_div_pow, Nat.mod_eq_of_lt hfits]

/-- A waveshape dump's points pass first; then come its address and its frame (R133). -/
theorem exec_asmWaveDump_eq (waveshape : Nat) {pts : List Point} (hpts : pts.length = 128)
    (s : State) :
    exec (.asmWaveDump waveshape pts) s =
      finish (do
        checkWaveshape waveshape
        return asmFrame s 0x0A ([addrByte waveshape] ++ pack (bytesOfPoints pts))) s :=
  finish_checkShape_ok (beq_iff_eq.mpr hpts) _ s

/-- ASM.WAVE_DUMP answers SYSID, 0A, the waveshape and the packed points (R133). -/
theorem exec_asmWaveDump {waveshape : Nat} {pts : List Point} (hwave : waveshape < 128)
    (hpts : pts.length = 128) (s : State) :
    exec (.asmWaveDump waveshape pts) s =
      .next (s.answer (asmFrame s 0x0A ([addrByte waveshape] ++ pack (bytesOfPoints pts)))) :=
  (exec_asmWaveDump_eq waveshape hpts s).trans (finish_checkBelow_ok hwave _ s)

/-- Settles O17 (R133): the dump carries what MSB.PACK answers for the points' bytes, which fit
every legal MAX_SEQ_LEN. -/
theorem asmWaveDumpPacksPointsLowByteFirst : Obligations.AsmWaveDumpPacksPointsLowByteFirst := by
  intro waveshape pts s hconfig hpts
  obtain ⟨-, -, hmax, -⟩ := hconfig
  have hlen : (bytesOfPoints pts).length = 256 := by rw [bytesOfPoints_length, hpts]
  refine ⟨decode_asm (kind := 0x0A) (by decide) (by decide), fun hwave =>
    ⟨bytesOfPoints pts, pack (bytesOfPoints pts), hlen, by rw [pack_length, hlen],
      fun i hi => ?_, exec_msbPack (by omega), ?_⟩, fun hwave => ?_⟩
  · have hin : i < pts.length := by omega
    exact ⟨bytesOfPoints_getD_low hin, bytesOfPoints_getD_high hin⟩
  · rw [exec_asmWaveDump hwave hpts, asmFrame_append]
    rfl
  · exact (exec_asmWaveDump_eq waveshape hpts s).trans (finish_checkBelow_range hwave _ s)

end Sys2Proof.Machine

/-! The main dump and the name dump (41_assembler.md R134, R135): nibble pairs, and the encoded
name behind the addresses. -/

namespace Sys2Proof.Machine

/-! ### The main dump -/

theorem flatMap_nibPair_length (vs : List Byte) : (vs.flatMap nibPair).length = 2 * vs.length := by
  simp [nibPair, Nat.mul_comm]

/-- Byte 2i of a nibble-encoded sequence is value i's low nibble (R76). -/
theorem flatMap_nibPair_getD_low {vs : List Byte} {i : Nat} (h : i < vs.length) :
    ((vs.flatMap nibPair).getD (2 * i) 0).toNat = (vs.getD i 0).toNat % 16 := by
  have hbyte : (vs.flatMap nibPair)[2 * i]? = vs[i]?.map lowNibble :=
    flatMap_pair_getElem?_even _ _ vs i
  rw [List.getD_eq_getElem?_getD, hbyte]
  simp [h, lowNibble_toNat]

/-- Byte 2i + 1 of a nibble-encoded sequence is value i's high nibble (R76). -/
theorem flatMap_nibPair_getD_high {vs : List Byte} {i : Nat} (h : i < vs.length) :
    ((vs.flatMap nibPair).getD (2 * i + 1) 0).toNat = (vs.getD i 0).toNat / 16 := by
  have hbyte : (vs.flatMap nibPair)[2 * i + 1]? = vs[i]?.map highNibble :=
    flatMap_pair_getElem?_odd _ _ vs i
  rw [List.getD_eq_getElem?_getD, hbyte]
  simp [h, highNibble_toNat]

/-- ASM.MAIN_DUMP answers SYSID, 0F and the parameters' nibble pairs (R134). -/
theorem exec_asmMainDump {params : List Byte} (hparams : params.length = 16) (s : State) :
    exec (.asmMainDump params) s =
      .next (s.answer (asmFrame s 0x0F (params.flatMap nibPair))) :=
  finish_checkShape_ok (beq_iff_eq.mpr hparams) _ s

/-- Settles O18 (R134): the payload is the parameters' nibble pairs. -/
theorem asmMainDumpNibbleEncodesParameters : Obligations.AsmMainDumpNibbleEncodesParameters := by
  intro params s hparams
  refine ⟨decode_asm (kind := 0x0F) (by decide) (by decide), params.flatMap nibPair, ?_,
    fun i hi => ?_, ?_⟩
  · rw [flatMap_nibPair_length, hparams]
  · have hin : i < params.length := by omega
    exact ⟨flatMap_nibPair_getD_low hin, flatMap_nibPair_getD_high hin⟩
  · rw [exec_asmMainDump hparams, ← List.nil_append (List.flatMap _ _), asmFrame_append]
    rfl

/-! ### The name dump -/

/-- STR.ENC turns away a name that is too long or has a code above 127 (R111). -/
theorem strEnc_error {name : List Nat} (h : 16 < name.length ∨ ∃ c ∈ name, 127 < c) :
    ∃ e, strEnc name = .error e := by
  obtain ⟨-, herr⟩ | ⟨-, c, -, -, herr⟩ | ⟨hlen, hascii, -⟩ := strEnc_cases name
  · exact ⟨_, herr⟩
  · exact ⟨_, herr⟩
  · obtain hlong | ⟨c, hc, hbig⟩ := h
    · omega
    · exact absurd (hascii c hc) (Nat.not_le.mpr hbig)

/-- STR.ENC's error is its answer (R111, R200). -/
theorem exec_strEnc_error {name : List Nat} {e : Err} (h : strEnc name = .error e) (s : State) :
    exec (.strEnc name) s = .next (s.raise e) := by
  change execStrEnc name s = _
  rw [execStrEnc, h, error_bind, finish_error]

/-- Behind legal addresses a name dump ends as STR.ENC of its name does, the encoded name in the
frame (R135). -/
theorem exec_asmNameDump {bank program : Nat} (hbank : bank < 4) (hprogram : program < 128)
    (name : List Nat) (s : State) :
    exec (.asmNameDump bank program name) s =
      finish (do
        let b ← strEnc name
        return asmFrame s 0x11 ([addrByte bank, addrByte program] ++ b)) s :=
  finish_checkCell_ok hbank hprogram _ s

/-- Settles O19 (R135, R206): bank, program and name are checked in this order, and the name by
STR.ENC itself. -/
theorem asmNameDumpCarriesTheEncodedName : Obligations.AsmNameDumpCarriesTheEncodedName := by
  intro bank program name s
  refine ⟨decode_asm (kind := 0x11) (by decide) (by decide),
    fun hbank hprogram hlen hascii => ?_, fun hbank hprogram hbad => ?_, fun hbank => ?_,
    fun hbank hprogram => ?_⟩
  · have henc := strEnc_ok hlen hascii
    refine ⟨asciiField name, asciiField_length hlen, exec_strEnc henc s, ?_⟩
    rw [exec_asmNameDump hbank hprogram, henc, ok_bind, asmFrame_append]
    rfl
  · obtain ⟨e, herr⟩ := strEnc_error hbad
    rw [exec_asmNameDump hbank hprogram, exec_strEnc_error herr, herr, error_bind, finish_error]
  · exact finish_checkBelow_range hbank _ s
  · exact finish_checkCell_program hbank hprogram _ s

end Sys2Proof.Machine

/-! The parser's shared rules (42_parser.md R160): PARSE of a frame behind SYSID is the checks and
the merge of the row the frame stands for, which turn the frame away or commit one update. -/

namespace Sys2Proof.Machine

/-! ### Frames behind SYSID -/

/-- The frame of a payload that is leading bytes followed by data, grouped as SYSID, header and
data (R70). -/
theorem frame_append (sysid : List Byte) (id : Byte) (lead data : List Byte) :
    frame sysid id (lead ++ data) = sysid ++ id :: lead ++ data := by
  simp [frame]

/-- Behind SYSID a frame that the body checks turn away is turned away with their fault (R160). -/
theorem frameCheck_frame_error {sysid p : List Byte} {id : Byte} {e : FrameFault}
    (hsysid : sysid.length = 3) (h : bodyCheck id p = .error e) :
    frameCheck sysid (frame sysid id p) = .error e := by
  have not_foreign : ¬((frame sysid id p).length < 3 ∨ (frame sysid id p).take 3 ≠ sysid) := by
    simp [frame, ← hsysid]
  have body : (frame sysid id p).drop 3 = id :: p := by simp [frame, ← hsysid]
  simp only [frameCheck, if_neg not_foreign, body, h]

/-- PARSE of a frame behind SYSID is the identifier's checks, then its merge, as in the frame's
row (R160). -/
theorem exec_parse_frame {s : State} (hsysid : s.config.sysid.length = 3) (id : Byte)
    (p : List Byte) :
    exec (.parse (frame s.config.sysid id p)) s =
      finishParse (mergeChecked id p (mergeBody id p s.mirror)) s := by
  change execParse _ s = _
  cases hbody : bodyCheck id p with
  | ok =>
    have accepted := (frameCheck_ok_iff hsysid).mpr ⟨rfl, hbody⟩
    simp only [execParse, accepted, mergeChecked, hbody]
  | error e =>
    simp only [execParse, frameCheck_frame_error hsysid hbody, mergeChecked, hbody]

/-! ### Frames turned away -/

/-- The eight inbound identifiers with their payload lengths (R74, R164, R173). -/
def inboundKinds : List (Byte × Nat) :=
  [(0x01, 3), (0x02, 222), (0x03, 220), (0x08, 3), (0x09, 3), (0x0A, 294), (0x0F, 32), (0x11, 18)]

theorem inboundPayloadLen_eq_some_iff {id : Byte} {n : Nat} :
    inboundPayloadLen id = some n ↔ (id, n) ∈ inboundKinds := by
  constructor
  · intro h
    unfold inboundPayloadLen at h
    split_ifs at h <;> cases h <;> subst id <;> decide
  · intro h
    simp only [inboundKinds, List.mem_cons, Prod.mk.injEq, List.not_mem_nil, or_false] at h
    obtain ⟨rfl, rfl⟩ | ⟨rfl, rfl⟩ | ⟨rfl, rfl⟩ | ⟨rfl, rfl⟩ | ⟨rfl, rfl⟩ | ⟨rfl, rfl⟩ |
      ⟨rfl, rfl⟩ | ⟨rfl, rfl⟩ := h <;> rfl

/-- A frame whose identifier has no payload length, or another one than the payload's, is
UNRECOGNIZED (R164, R173, R203). -/
theorem exec_parse_unrecognized {id : Byte} {p : List Byte} {s : State}
    (hsysid : s.config.sysid.length = 3) (h : inboundPayloadLen id ≠ some p.length) :
    exec (.parse (frame s.config.sysid id p)) s =
      .next (s.raise ⟨.unrecognized, [id.toNat]⟩) := by
  rw [exec_parse_frame hsysid]
  obtain ⟨hbody, -⟩ | ⟨-, hfault⟩ := mergeChecked_cases id p (mergeBody id p s.mirror)
  · exact absurd (bodyCheck_ok_iff.mp hbody).2 h
  · rw [hfault, finishParse_error]

/-- Settles O23 (R164, R173): in both clauses the identifier's payload length, if it has one, is
not the payload's. -/
theorem parseTurnsAwayUnknownKindsAndLengths :
    Obligations.ParseTurnsAwayUnknownKindsAndLengths := by
  intro id p s hsysid
  refine ⟨fun hunknown => ?_, fun n hkind hlen => ?_⟩
  · refine exec_parse_unrecognized hsysid fun hsome => hunknown ?_
    exact List.mem_map_of_mem (f := Prod.fst) (inboundPayloadLen_eq_some_iff.mp hsome)
  · have hn : inboundPayloadLen id = some n := inboundPayloadLen_eq_some_iff.mpr hkind
    exact exec_parse_unrecognized hsysid (by simpa [hn] using hlen.symm)

/-! ### Frames merged -/

/-- The row of an accepted frame and PARSE of the frame both commit the row's merge, which writes
at most the region of its tag (R33, R55, R160). -/
theorem exec_accepted {row i : Instr} {id : Byte} {p : List Byte} {s : State} {m : Mirror}
    {tag : Tag} (hsysid : s.config.sysid.length = 3) (hwire : ∀ b ∈ id :: p, b.toNat < 128)
    (hlen : inboundPayloadLen id = some p.length)
    (hrow : exec row s = finishParse (mergeChecked id p (mergeBody id p s.mirror)) s)
    (hi : i = row ∨ i = .parse (frame s.config.sysid id p))
    (hmerge : mergeBody id p s.mirror = .ok (m, tag)) :
    exec i s = .next (s.commit m tag) ∧ State.OnlyWrites tag s (s.commit m tag) := by
  have hbody : bodyCheck id p = .ok () := bodyCheck_ok_iff.mpr ⟨hwire, hlen⟩
  have hexec : exec i s = finishParse (mergeChecked id p (mergeBody id p s.mirror)) s := by
    obtain rfl | rfl := hi
    · exact hrow
    · exact exec_parse_frame hsysid id p
  refine ⟨?_, State.onlyWrites_commit (mergeBody_merged hbody hmerge)⟩
  simp only [hexec, mergeChecked, hbody, hmerge, finishParse_ok]

end Sys2Proof.Machine

/-! The packed dumps as PARSE merges them (42_parser.md R166, R167): MSB.UNPACK of the payload into
the edit buffer or, as points, into one waveshape. -/

namespace Sys2Proof.Machine

/-- MSB.UNPACK answers the unpacked sequence to an operand that fits (R107, R108). -/
theorem exec_msbUnpack {w : List Byte} {s : State} (h : w.length ≤ s.config.maxSeqLen) :
    exec (.msbUnpack w) s = .next (s.answer (.bytes (unpack w))) :=
  finish_checkShape_ok (decide_eq_true h) _ s

/-! ### The edit buffer -/

/-- The first 128 bytes of a snapshot are the edit parameters (R54, R166). -/
theorem Mirror.editParam_setEditAll (m : Mirror) (u : List Byte) {j : Nat} (h : j < 128) :
    (m.setEditAll u).editParam j = u.getD j 0 := by
  simp [Mirror.editParam, List.getD, List.getElem?_take_of_lt h]

/-- The bytes of a snapshot from 128 on are the sequencer steps (R54, R166). -/
theorem Mirror.editSeq_setEditAll (m : Mirror) (u : List Byte) (k : Nat) :
    (m.setEditAll u).editSeq k = u.getD (128 + k) 0 := by
  simp [Mirror.editSeq, List.getD]

/-- Settles O31 (R166): the merge's one write is the edit buffer, from the 192 bytes that
MSB.UNPACK answers. -/
theorem parseEditDumpReplacesTheEditBuffer : Obligations.ParseEditDumpReplacesTheEditBuffer := by
  intro packed s i hwf hwire hlen hi
  obtain ⟨⟨hsysid, -, hmax, -⟩, -⟩ := hwf
  rw [show s.config.sysid ++ [0x03] ++ packed = frame s.config.sysid 0x03 packed from
    (frame_append _ _ [] packed).symm] at hi
  obtain ⟨hexec, honly⟩ := exec_accepted (m := s.mirror.setEditAll (unpack packed))
    (tag := .editAll) hsysid (List.forall_mem_cons.mpr ⟨by decide, hwire⟩) (by rw [hlen]; rfl)
    (hrow := rfl) hi (hmerge := rfl)
  exact ⟨_, unpack packed, hexec, exec_msbUnpack (by omega), by rw [unpack_length, hlen],
    fun _ => Mirror.editParam_setEditAll _ _, fun _ _ => Mirror.editSeq_setEditAll _ _ _, rfl,
    honly⟩

/-! ### Waveshapes -/

/-- Two bytes join to a point, low byte first (R50). -/
theorem joinBytes_toNat (lo hi : Byte) : (joinBytes lo hi).toNat = lo.toNat + 256 * hi.toNat := by
  have high_fits : hi.toNat <<< 8 % 2 ^ 16 = 2 ^ 8 * hi.toNat := by
    rw [Nat.shiftLeft_eq]; omega
  have disjoint := Nat.two_pow_add_eq_or_of_lt lo.isLt hi.toNat
  simp only [joinBytes, BitVec.toNat_or, BitVec.toNat_shiftLeft, BitVec.toNat_setWidth]
  rw [Nat.mod_eq_of_lt (by omega), Nat.mod_eq_of_lt (a := hi.toNat) (by omega), high_fits,
    Nat.or_comm, ← disjoint, Nat.add_comm]

/-- Point j of a byte sequence is its bytes 2j and 2j + 1 (R50, R167). -/
theorem pointsOfBytes_getD :
    ∀ (bs : List Byte) (j : Nat), 2 * j + 1 < bs.length →
      (pointsOfBytes bs).getD j 0 = joinBytes (bs.getD (2 * j) 0) (bs.getD (2 * j + 1) 0)
  | [], _, h | [_], _, h => by simp at h
  | _ :: _ :: _, 0, _ => rfl
  | _ :: _ :: rest, j + 1, h => pointsOfBytes_getD rest j (by simp at h; omega)

/-- Settles O32 (R167): the merge's one write is the waveshape, whose points are the byte pairs
that MSB.UNPACK answers. -/
theorem parseWaveDumpSetsOneWaveshape : Obligations.ParseWaveDumpSetsOneWaveshape := by
  intro waveshape packed s i hwf hwave hwire hlen hi
  obtain ⟨⟨hsysid, -, hmax, -⟩, -, -, -, -, -, hwaves, -⟩ := hwf
  rw [show s.config.sysid ++ [0x0A, waveshape] ++ packed =
    frame s.config.sysid 0x0A (waveshape :: packed) from
    (frame_append _ _ [waveshape] packed).symm] at hi
  obtain ⟨hexec, honly⟩ := exec_accepted
    (m := s.mirror.setWave waveshape.toNat (some (pointsOfBytes (unpack packed))))
    (tag := .wave waveshape.toNat) hsysid
    (List.forall_mem_cons.mpr ⟨by decide, List.forall_mem_cons.mpr ⟨hwave, hwire⟩⟩)
    (by rw [List.length_cons, hlen]; rfl) (hrow := rfl) hi (hmerge := rfl)
  have hunpack : (unpack packed).length = 256 := by rw [unpack_length, hlen]
  refine ⟨_, unpack packed, pointsOfBytes (unpack packed), hexec, exec_msbUnpack (by omega),
    hunpack, by rw [pointsOfBytes_length, hunpack], fun j hj => ?_,
    Mirror.wave_setWave _ _ _ (by omega), rfl, honly⟩
  rw [pointsOfBytes_getD _ _ (by omega), joinBytes_toNat]

end Sys2Proof.Machine

/-! Errors as the block's whole exception (60_exceptions.md R200, R202): an error leaves the state
as it was, and a name of more than 16 characters is one. -/

namespace Sys2Proof.Machine

/-! ### Any error -/

/-- Settles O48 (R200): an operation's response is all that it changes, or it is PARSE and commits
a merge, whose status is OK. -/
theorem errorsChangeNothing : Obligations.ErrorsChangeNothing := by
  intro i s t r hexec hresponse herror
  obtain ⟨r', rfl, htag, hresult⟩ | ⟨-, m, tag, -, rfl⟩ := exec_cases hexec
  · obtain rfl : r' = r := Option.some.inj hresponse
    exact ⟨rfl, hresult herror, htag⟩
  · obtain rfl := Option.some.inj hresponse
    exact absurd rfl herror

/-! ### Names that are too long -/

/-- A name of more than 16 codes is OVERFLOW with its length, whatever the codes (R111, R202). -/
theorem strEnc_overflow {name : List Nat} (h : 16 < name.length) :
    strEnc name = .error ⟨.overflow, [name.length]⟩ := by
  obtain ⟨-, herr⟩ | ⟨hfits, -⟩ | ⟨hfits, -⟩ := strEnc_cases name
  · exact herr
  · omega
  · omega

/-- Behind legal addresses STR.ENC's error is the name dump's answer (R135, R200). -/
theorem exec_asmNameDump_error {bank program : Nat} {name : List Nat} {e : Err}
    (hbank : bank < 4) (hprogram : program < 128) (h : strEnc name = .error e) (s : State) :
    exec (.asmNameDump bank program name) s = .next (s.raise e) := by
  rw [exec_asmNameDump hbank hprogram, h, error_bind, finish_error]

/-- Settles O10 (R202): both operations answer with STR.ENC's error. -/
theorem longNamesAnswerOverflow : Obligations.LongNamesAnswerOverflow := by
  intro name bank program s hlong hbank hprogram
  have hoverflow := strEnc_overflow hlong
  exact ⟨exec_strEnc_error hoverflow s, exec_asmNameDump_error hbank hprogram hoverflow s⟩

end Sys2Proof.Machine

/-! The unpacked sequence, place by place (40_codecs.md R107 to R110): what MSB.UNPACK reads from a
wire group, and that it and MSB.PACK undo each other. -/

namespace Sys2Proof.Machine

/-! ### One data byte -/

/-- Data byte k of a group as R107 restores it: its top bit set if flag bit k is set. -/
def restoreTop (flag : Byte) (k : Nat) (d : Byte) : Byte :=
  if flag.getLsbD k then d ||| 0x80 else d

theorem clearTop_getLsbD (b : Byte) (i : Nat) :
    (clearTop b).getLsbD i = (b.getLsbD i && decide (i ≠ 7)) := by
  obtain hi | hi := Nat.lt_or_ge i 8
  · have mask : ∀ i < 8, (0x7F : Byte).getLsbD i = decide (i ≠ 7) := by decide
    rw [clearTop, BitVec.getLsbD_and, mask i hi]
  · simp [BitVec.getLsbD_of_ge _ i hi]

theorem restoreTop_getLsbD (flag : Byte) (k : Nat) (d : Byte) (i : Nat) :
    (restoreTop flag k d).getLsbD i = (d.getLsbD i || (decide (i = 7) && flag.getLsbD k)) := by
  have mask : (0x80 : Byte).getLsbD i = decide (i = 7) := by
    obtain hi | hi := Nat.lt_or_ge i 8
    · have below : ∀ i < 8, (0x80 : Byte).getLsbD i = decide (i = 7) := by decide
      exact below i hi
    · rw [BitVec.getLsbD_of_ge _ i hi, decide_eq_false (by omega)]
  unfold restoreTop
  split
  · next hflag => rw [BitVec.getLsbD_or, mask, hflag, Bool.and_true]
  · next hflag => simp [hflag]

/-- A wire byte is a byte whose top bit is clear (R53). -/
theorem wire_iff_topBit {b : Byte} : b.toNat < 128 ↔ b.getLsbD 7 = false := by
  have below : b.msb = false ↔ 2 * b.toNat < 2 ^ 8 := BitVec.msb_eq_false_iff_two_mul_lt
  rw [BitVec.msb_eq_getLsbD_last] at below
  exact Iff.trans (by omega) below.symm

/-- Restoring a cleared byte from a flag that holds its top bit gives the byte back (R110). -/
theorem restoreTop_clearTop {flag b : Byte} {k : Nat} (h : flag.getLsbD k = b.getLsbD 7) :
    restoreTop flag k (clearTop b) = b := by
  refine BitVec.eq_of_getLsbD_eq fun i _ => ?_
  rw [restoreTop_getLsbD, clearTop_getLsbD, h]
  by_cases hi : i = 7 <;> simp [hi]

/-- Clearing a restored wire byte gives the wire byte back (R110). -/
theorem clearTop_restoreTop (flag : Byte) (k : Nat) {d : Byte} (h : d.toNat < 128) :
    clearTop (restoreTop flag k d) = d := by
  refine BitVec.eq_of_getLsbD_eq fun i _ => ?_
  rw [clearTop_getLsbD, restoreTop_getLsbD]
  by_cases hi : i = 7
  · subst hi
    rw [wire_iff_topBit.mp h]
    simp
  · simp [hi]

theorem clearTop_wire (b : Byte) : (clearTop b).toNat < 128 :=
  wire_iff_topBit.mpr ((clearTop_getLsbD b 7).trans (Bool.and_false _))

/-! ### The groups -/

/-- Past its first 7 bytes an unpacked sequence is the rest of the wire bytes, unpacked (R107). -/
theorem unpack_drop_group (w : List Byte) : unpack (w.drop 8) = (unpack w).drop 7 := by
  obtain h | h := Nat.lt_or_ge w.length 8
  · have hlen : (unpack w).length ≤ 7 := by rw [unpack_length]; omega
    rw [List.drop_eq_nil_of_le h.le, List.drop_eq_nil_of_le hlen, unpack_nil]
  · have hne : w ≠ [] := by rintro rfl; simp at h
    have hgrp : (unpackGroup (w.take 8)).length = 7 := by simp [h]
    rw [unpack_group w hne, ← hgrp, List.drop_left]

/-- Wire group g stands at 8g and unpacks to the bytes from 7g on (R107). -/
theorem unpack_drop (w : List Byte) (g : Nat) :
    unpack (w.drop (8 * g)) = (unpack w).drop (7 * g) := by
  induction g generalizing w with
  | zero => rfl
  | succ g ih =>
    calc unpack (w.drop (8 * (g + 1)))
        = unpack ((w.drop 8).drop (8 * g)) := by rw [List.drop_drop, Nat.mul_succ, Nat.add_comm]
      _ = ((unpack w).drop 7).drop (7 * g) := by rw [ih, unpack_drop_group]
      _ = (unpack w).drop (7 * (g + 1)) := by rw [List.drop_drop, Nat.mul_succ, Nat.add_comm]

/-- The first group's bytes are its data bytes, restored from its flag byte (R107). -/
theorem unpack_getElem?_first (w : List Byte) {k : Nat} (h : k < 7) :
    (unpack w)[k]? = w[k + 1]?.map (restoreTop (w.getD 0 0) k) := by
  cases w with
  | nil => rfl
  | cons flag data =>
    have hgroup : unpackGroup ((flag :: data).take 8) = restoreFrom flag 0 (data.take 7) := rfl
    rw [unpack_group _ (List.cons_ne_nil _ _), hgroup, List.getElem?_cons_succ]
    obtain hk | hk := Nat.lt_or_ge k data.length
    · rw [List.getElem?_append_left (by simp; omega), restoreFrom_getElem?,
        List.getElem?_take_of_lt h, Nat.zero_add]
      rfl
    · have hshort : (flag :: data).length ≤ 8 := by simp; omega
      rw [List.drop_eq_nil_of_le hshort, unpack_nil, List.append_nil,
        List.getElem?_eq_none (by simp; omega), List.getElem?_eq_none hk, Option.map_none]

/-- Byte k of wire group g unpacks to place 7g + k, restored from the flag byte at 8g (R107). -/
theorem unpack_getElem? (w : List Byte) (g : Nat) {k : Nat} (h : k < 7) :
    (unpack w)[7 * g + k]? = w[8 * g + 1 + k]?.map (restoreTop (w.getD (8 * g) 0) k) := by
  have hgroup := unpack_getElem?_first (w.drop (8 * g)) h
  rw [unpack_drop, List.getElem?_drop, List.getElem?_drop] at hgroup
  rw [hgroup, Nat.add_assoc, Nat.add_comm k 1]
  simp [List.getD]

/-! ### Packing and unpacking -/

/-- A flag bit is bit 7 of the byte of its place, and 0 where the group has no byte (R52, D2). -/
theorem pack_flag_getLsbD (u : List Byte) (g k : Nat) :
    ((pack u).getD (8 * g) 0).getLsbD k =
      (decide (k < 7) && (u.getD (7 * g + k) 0).getLsbD 7) := by
  rw [pack_getD_flag, flagByte, flagFrom_getLsbD]
  obtain hk | hk := Nat.lt_or_ge k 7
  · simp [hk, show k < 8 by omega, List.getD]
  · simp [Nat.not_lt.mpr hk, List.getD]

/-- A place of a packed sequence is a group's flag byte or one of its up to 7 data bytes (R52). -/
theorem packed_place (i : Nat) : i = 8 * (i / 8) ∨ ∃ k < 7, i = 8 * (i / 8) + 1 + k := by
  by_cases h : i % 8 = 0
  · exact .inl (by omega)
  · exact .inr ⟨i % 8 - 1, by omega, by omega⟩

/-- Every packed byte is a wire byte: data bytes are cleared, and flag bit 7 has no data byte
(R104, D2). -/
theorem pack_wire (u : List Byte) : ∀ b ∈ pack u, b.toNat < 128 := by
  intro b hb
  obtain ⟨i, hi⟩ := List.mem_iff_getElem?.mp hb
  obtain hflag | ⟨k, hk, hdata⟩ := packed_place i
  · have hbyte : (pack u).getD (8 * (i / 8)) 0 = b := by
      rw [← hflag, List.getD_eq_getElem?_getD, hi, Option.getD_some]
    rw [wire_iff_topBit, ← hbyte, pack_flag_getLsbD]
    simp
  · rw [hdata, pack_getElem?_data u _ hk] at hi
    obtain ⟨c, -, rfl⟩ := Option.map_eq_some_iff.mp hi
    exact clearTop_wire c

/-- Unpacking what was packed gives it back (R110): each byte is restored from its own flag bit. -/
theorem unpack_pack (u : List Byte) : unpack (pack u) = u := by
  refine List.ext_getElem? fun i => ?_
  have hk : i % 7 < 7 := Nat.mod_lt _ (by omega)
  rw [← Nat.div_add_mod i 7, unpack_getElem? _ _ hk, pack_getElem?_data _ _ hk, Option.map_map]
  cases hu : u[7 * (i / 7) + i % 7]? with
  | none => rfl
  | some b =>
    have hflag : ((pack u).getD (8 * (i / 7)) 0).getLsbD (i % 7) = b.getLsbD 7 := by
      rw [pack_flag_getLsbD, List.getD_eq_getElem?_getD, hu]
      simp [hk]
    exact congrArg some (restoreTop_clearTop hflag)

/-- In a wire sequence, the flag byte of a group has no bits but the top bits that its own data
bytes unpack to, if its unused bits are 0 (R110). -/
theorem pack_unpack_flag {w : List Byte} {g : Nat} (hwire : ∀ b ∈ w, b.toNat < 128)
    (hg : 8 * g < w.length)
    (hunused : ∀ k < 7, w.length ≤ 8 * g + 1 + k → (w.getD (8 * g) 0).getLsbD k = false) :
    (pack (unpack w)).getD (8 * g) 0 = w.getD (8 * g) 0 := by
  have hflag : w.getD (8 * g) 0 ∈ w := by
    rw [List.getD_eq_getElem _ _ hg]
    exact List.getElem_mem hg
  refine BitVec.eq_of_getLsbD_eq fun k hk8 => ?_
  rw [pack_flag_getLsbD]
  obtain hk | hk := Nat.lt_or_ge k 7
  · rw [decide_eq_true hk, Bool.true_and, List.getD_eq_getElem?_getD, unpack_getElem? _ _ hk]
    obtain hin | hpast := Nat.lt_or_ge (8 * g + 1 + k) w.length
    · rw [List.getElem?_eq_getElem hin, Option.map_some, Option.getD_some, restoreTop_getLsbD,
        wire_iff_topBit.mp (hwire _ (List.getElem_mem hin))]
      simp
    · rw [List.getElem?_eq_none hpast, hunused k hk hpast]
      simp
  · obtain rfl : k = 7 := by omega
    rw [wire_iff_topBit.mp (hwire _ hflag)]
    simp

/-- Packing what was unpacked from a canonical sequence gives it back (R110): it has no lone flag
byte, wire bytes only, and no flag bit but those of its data bytes. -/
theorem pack_unpack {w : List Byte} (h : packedCanonical w) : pack (unpack w) = w := by
  obtain ⟨hall, hlone, hunused⟩ := h
  have hwire : ∀ b ∈ w, b.toNat < 128 := by simpa [allWire, isWire] using hall
  have hlen : (pack (unpack w)).length = w.length := by
    rw [pack_length, unpack_length]
    omega
  refine List.ext_getElem hlen fun i hpack hi => ?_
  obtain hflag | ⟨k, hk, hdata⟩ := packed_place i
  · rw [← List.getD_eq_getElem _ 0 hpack, ← List.getD_eq_getElem _ 0 hi, hflag]
    refine pack_unpack_flag hwire (by omega) fun k hk hpast => ?_
    have last_group : i / 8 = w.length / 8 := by omega
    rw [last_group]
    exact hunused k (by omega) (by omega)
  · rw [← Option.some_inj, ← List.getElem?_eq_getElem, ← List.getElem?_eq_getElem, hdata,
      pack_getElem?_data _ _ hk, unpack_getElem? _ _ hk, ← hdata, List.getElem?_eq_getElem hi]
    exact congrArg some (clearTop_restoreTop _ _ (hwire _ (List.getElem_mem hi)))

/-! ### The operations -/

/-- Command word 0x300 is MSB.UNPACK's (R82, R107). -/
theorem decode_msbUnpack (sysid w : List Byte) :
    decode sysid ⟨0x300, [.bytes w]⟩ = .ok (.msbUnpack w) :=
  decode_op (op := 0x3) (by decide) (by decide) (by decide) (by decide)

/-- An operand of the wrong shape ends the operation with REFUSED (R84, R205). -/
theorem finish_checkShape_refused {shape : Bool} (h : shape = false) (x : Except Err Result)
    (s : State) : finish (do checkShape shape; x) s = .next (s.raise ⟨.refused, []⟩) := by
  rw [h, checkShape_false, error_bind, finish_error]

/-- Settles O5 (D1, D2): the empty sequence has no groups, and a flag bit whose place is not in
the operand has no data byte. -/
theorem msbPackLeavesUnusedFlagBitsClear : Obligations.MsbPackLeavesUnusedFlagBitsClear := by
  intro u s hfit
  refine ⟨pack u, exec_msbPack hfit, fun hempty => by rw [hempty, pack_nil], pack_wire u,
    fun g k _ hpast => ?_⟩
  rw [pack_flag_getLsbD, List.getD_eq_default _ _ hpast]
  simp

/-- Settles O6 (R107 to R109): the answer is the unpacked sequence, whose bytes are read place by
place; only a too long operand is refused. -/
theorem msbUnpackRestoresTopBits : Obligations.MsbUnpackRestoresTopBits := by
  intro w s
  refine ⟨decode_msbUnpack _ w, fun hlong => ?_, fun hfit =>
    ⟨unpack w, exec_msbUnpack hfit, unpack_length w, fun g k hk hin => ?_⟩⟩
  · exact finish_checkShape_refused (decide_eq_false (Nat.not_le.mpr hlong)) _ s
  · simp only [List.getD_eq_getElem?_getD, unpack_getElem? w g hk, List.getElem?_eq_getElem hin]
    rfl

/-- Settles O7 (R110): MSB.UNPACK of MSB.PACK's answer, which fits. -/
theorem msbUnpackInvertsPack : Obligations.MsbUnpackInvertsPack := by
  intro u s hfit
  refine ⟨pack u, exec_msbPack (by omega), ?_⟩
  rw [exec_msbUnpack (by rwa [pack_length]), unpack_pack]
  rfl

/-- Settles O8 (R110): MSB.PACK of MSB.UNPACK's answer, which is no longer than the operand. -/
theorem msbPackInvertsUnpackOnCanonical : Obligations.MsbPackInvertsUnpackOnCanonical := by
  intro w s hfit hcanonical
  refine ⟨unpack w, exec_msbUnpack hfit, ?_⟩
  rw [exec_msbPack (by rw [unpack_length]; omega), pack_unpack hcanonical]
  rfl

end Sys2Proof.Machine

/-! The nibble and string codecs' round trips, and the operands they turn away (40_codecs.md R102,
R111 to R113; 30_encoding.md R84). -/

namespace Sys2Proof.Machine

/-! ### Nibbles -/

theorem lowNibble_lt (v : Byte) : (lowNibble v).toNat < 16 := by
  rw [lowNibble_toNat]
  omega

theorem highNibble_lt (v : Byte) : (highNibble v).toNat < 16 := by
  rw [highNibble_toNat]
  omega

/-- A byte's two nibbles join to the byte (R102). -/
theorem joinNibbles_lowNibble_highNibble (v : Byte) :
    joinNibbles (lowNibble v) (highNibble v) = v := by
  apply BitVec.eq_of_toNat_eq
  rw [joinNibbles_toNat (lowNibble_lt v) (highNibble_lt v), lowNibble_toNat, highNibble_toNat]
  omega

theorem lowNibble_joinNibbles {lo hi : Byte} (hlo : lo.toNat < 16) (hhi : hi.toNat < 16) :
    lowNibble (joinNibbles lo hi) = lo := by
  apply BitVec.eq_of_toNat_eq
  rw [lowNibble_toNat, joinNibbles_toNat hlo hhi]
  omega

theorem highNibble_joinNibbles {lo hi : Byte} (hlo : lo.toNat < 16) (hhi : hi.toNat < 16) :
    highNibble (joinNibbles lo hi) = hi := by
  apply BitVec.eq_of_toNat_eq
  rw [highNibble_toNat, joinNibbles_toNat hlo hhi]
  omega

/-- NIB.DEC undoes NIB.ENC (R102). -/
theorem nibDec_nibbles (v : Byte) : nibDec (lowNibble v) (highNibble v) = .ok v := by
  rw [nibDec_ok (lowNibble_lt v) (highNibble_lt v), joinNibbles_lowNibble_highNibble]

/-- Settles O3 (R102): splitting and joining undo each other. -/
theorem nibbleCodecRoundTrips : Obligations.NibbleCodecRoundTrips := by
  intro s
  refine ⟨fun v => ⟨lowNibble v, highNibble v, exec_nibEnc v s, ?_⟩,
    fun lo hi hlo hhi => ⟨joinNibbles lo hi, exec_nibDec_ok hlo hhi s, ?_⟩⟩
  · rw [exec_nibDec_ok (lowNibble_lt v) (highNibble_lt v), joinNibbles_lowNibble_highNibble]
    rfl
  · rw [exec_nibEnc, lowNibble_joinNibbles hlo hhi, highNibble_joinNibbles hlo hhi]
    rfl

/-! ### Names -/

/-- Command word 0x500 is STR.DEC's (R82, R112). -/
theorem decode_strDec (sysid b : List Byte) :
    decode sysid ⟨0x500, [.bytes b]⟩ = .ok (.strDec b) :=
  decode_op (op := 0x5) (by decide) (by decide) (by decide) (by decide)

/-- STR.DEC answers the decoded name to 16 bytes (R112). -/
theorem exec_strDec {b : List Byte} (h : b.length = 16) (s : State) :
    exec (.strDec b) s = .next (s.answer (.bytes (strDec b))) :=
  finish_checkShape_ok (beq_iff_eq.mpr h) _ s

/-- A printable byte is a name byte as it stands (R112). -/
theorem nameChar_of_isPrintable {b : Byte} (h : isPrintable b = true) : nameChar b = b :=
  if_pos h

/-- STR.DEC leaves a name of printable bytes as it is (R113). -/
theorem strDec_of_isPrintable {b : List Byte} (h : ∀ c ∈ b, isPrintable c = true) :
    strDec b = b :=
  (List.map_congr_left fun c hc => nameChar_of_isPrintable (h c hc)).trans (List.map_id b)

/-- The field of a printable name holds printable bytes only, the padding being spaces (R77). -/
theorem asciiField_isPrintable {name : List Nat} (h : ∀ c ∈ name, 32 ≤ c ∧ c ≤ 126) :
    ∀ b ∈ asciiField name, isPrintable b = true := by
  intro b hb
  obtain hcode | hpad := List.mem_append.mp hb
  · obtain ⟨c, hc, rfl⟩ := List.mem_map.mp hcode
    have := h c hc
    have hfits : c % 256 = c := by omega
    simp [isPrintable, hfits, this]
  · rw [List.eq_of_mem_replicate hpad]
    rfl

/-- The first code above 127 of a name that fits is STR.ENC's RANGE (R111, D20). -/
theorem strEnc_range {before after : List Nat} {c : Nat}
    (hlen : (before ++ c :: after).length ≤ 16) (hbefore : ∀ d ∈ before, d ≤ 127)
    (hc : 127 < c) : strEnc (before ++ c :: after) = .error (rangeErr [c]) := by
  have first : (before ++ c :: after).find? (127 < ·) = some c := by
    rw [List.find?_append, List.find?_eq_none.mpr (by simpa using hbefore)]
    simp [hc]
  simp only [strEnc, if_neg (Nat.not_lt.mpr hlen), first]

/-- Settles O11 (D20): STR.ENC answers its error. -/
theorem nonAsciiNamesAnswerRange : Obligations.NonAsciiNamesAnswerRange := by
  intro before after c s hlen hbefore hc
  exact exec_strEnc_error (strEnc_range hlen hbefore hc) s

/-- Settles O12 (R112): the answer is the operand, byte by byte as a name character. -/
theorem strDecReplacesUnprintableBytes : Obligations.StrDecReplacesUnprintableBytes := by
  intro b s
  refine ⟨decode_strDec _ b, fun hlen => ?_, fun hlen =>
    ⟨strDec b, exec_strDec hlen s, by rw [strDec_length, hlen], fun i hi => ?_⟩⟩
  · exact finish_checkShape_refused (beq_eq_false_iff_ne.mpr hlen) _ s
  · have hin : i < b.length := by omega
    simp [strDec, nameChar, isPrintable, hin]

/-- Settles O13 (R113): the field of a printable name is printable, so STR.DEC leaves it. -/
theorem printableNamesRoundTrip : Obligations.PrintableNamesRoundTrip := by
  intro name s hlen hprintable
  have hascii : ∀ c ∈ name, c ≤ 127 := fun c hc => by
    have := hprintable c hc
    omega
  refine ⟨asciiField name, exec_strEnc (strEnc_ok hlen hascii) s, ?_⟩
  rw [exec_strDec (asciiField_length hlen),
    strDec_of_isPrintable (asciiField_isPrintable hprintable)]
  rfl

/-! ### Wrong shapes -/

/-- Settles O14 (R84, log 9): every operation with an operand shape checks it first. -/
theorem wrongOperandShapesAreRefused : Obligations.WrongOperandShapesAreRefused := by
  intro i s hrow hshape
  cases i with
  | msbPack | msbUnpack | strDec | asmProgramDump | asmEditDump | asmWaveDump | asmMainDump =>
    exact finish_checkShape_refused hshape _ s
  | nibEnc | nibDec | strEnc | asmProgParam | asmCtrlReset | asmReqProgram | asmReqEdit | asmSeqStep
  | asmMainParam | asmReqWave | asmReqMain | asmReqName | asmNameDump | asmCtrlStartStop
  | asmCtrlShiftOn | asmCtrlShiftOff | parse => cases hshape
  | parseProgParam | parseProgramDump | parseEditDump | parseSeqStep | parseMainParam
  | parseWaveDump | parseMainDump | parseNameDump => cases hrow

end Sys2Proof.Machine

/-! What a step can do (20_memory.md R55, R56; 10_state.md section 5): every operation answers a
next state that the mirror and the parameters determine, and a step takes one arrival. -/

namespace Sys2Proof.Machine

/-! ### An operation's outcome -/

/-- PARSE and its rows end in a merge or an error that the frame, the mirror and the parameters
alone determine. -/
theorem exec_parse_eq_finishParse {i : Instr} {s s' : State} (h : i.isParse = true)
    (hmirror : s'.mirror = s.mirror) (hconfig : s'.config = s.config) :
    ∃ x, exec i s = finishParse x s ∧ exec i s' = finishParse x s' := by
  obtain ⟨m, c, a, r⟩ := s
  obtain ⟨m', c', a', r'⟩ := s'
  obtain rfl : m' = m := hmirror
  obtain rfl : c' = c := hconfig
  cases i with
  | parse | parseProgParam | parseProgramDump | parseEditDump | parseSeqStep | parseMainParam
  | parseWaveDump | parseMainDump | parseNameDump => exact ⟨_, rfl, rfl⟩
  | _ => cases h

/-- The end of a PARSE sets mirror and response, alike from every state with the same mirror. -/
theorem finishParse_eq_next (x : Except Err (Mirror × Tag)) (m₀ : Mirror) :
    ∃ m r, ∀ s : State, s.mirror = m₀ →
      finishParse x s = .next { s with mirror := m, response := some r } := by
  cases x with
  | ok y => exact ⟨y.1, ⟨.ok, [], .none, y.2⟩, fun _ _ => rfl⟩
  | error e => exact ⟨m₀, ⟨e.status, e.info, .none, .none⟩, fun _ h => h ▸ rfl⟩

/-- Settles O51 (D4): the end of an operation is fixed by its operands, the mirror and the
parameters, and so are its answer and its write. -/
theorem operationsReadOnlyMirrorAndParameters :
    Obligations.OperationsReadOnlyMirrorAndParameters := by
  intro i s s' hmirror hconfig
  cases hparse : i.isParse with
  | false =>
    obtain ⟨x, hs, hs'⟩ := exec_nonparse i s s' hparse hconfig
    obtain ⟨r, hr⟩ := finish_eq_respond x
    exact ⟨s.mirror, r, hs.trans (hr s), hs'.trans ((hr s').trans (hmirror ▸ rfl))⟩
  | true =>
    obtain ⟨x, hs, hs'⟩ := exec_parse_eq_finishParse hparse hmirror hconfig
    obtain ⟨m, r, hr⟩ := finishParse_eq_next x s.mirror
    exact ⟨m, r, hs.trans (hr s rfl), hs'.trans (hr s' hmirror)⟩

/-- An operation always answers a next state, with parameters and arrivals as they were. -/
theorem exec_next (i : Instr) (s : State) :
    ∃ t, exec i s = .next t ∧ t.config = s.config ∧ t.arrivals = s.arrivals := by
  obtain ⟨m, r, h, -⟩ := operationsReadOnlyMirrorAndParameters i s s rfl rfl
  exact ⟨_, h, rfl, rfl⟩

/-- A request is always answered, whether the interface defines it or not (R84, R205). -/
theorem doCommand_next (r : Request) (s : State) :
    ∃ t, doCommand r s = .next t ∧ t.config = s.config ∧ t.arrivals = s.arrivals := by
  unfold doCommand
  split
  · exact exec_next _ s
  · exact ⟨_, rfl, rfl, rfl⟩

/-! ### The step of each kind of arrival -/

theorem step_nil {s : State} (h : s.arrivals = []) : step s = .next s := by
  simp only [step, h]

theorem step_command {s : State} {r : Request} {rest : List Event}
    (h : s.arrivals = .command r :: rest) :
    step s = doCommand r { s with arrivals := rest } := by
  simp only [step, h]

/-- A legal environment write is made (R34). -/
theorem step_envWrite {s : State} {w : EnvWrite} {rest : List Event}
    (h : s.arrivals = .envWrite w :: rest) (hw : w.legal = true) :
    step s = .next { s with arrivals := rest, mirror := w.apply s.mirror } := by
  simp only [step, h, doEnvWrite, hw, if_true]

/-- An environment write outside the element types is the machine's one fault (log 14). -/
theorem step_envWrite_illegal {s : State} {w : EnvWrite} {rest : List Event}
    (h : s.arrivals = .envWrite w :: rest) (hw : w.legal = false) :
    step s = .fault .illTypedEnvWrite := by
  simp only [step, h, doEnvWrite, hw, Bool.false_eq_true, if_false]

/-- Settles O43 (R81): the decoder's row is run. -/
theorem stepRunsTheDecodedOperation : Obligations.StepRunsTheDecodedOperation := by
  intro s r rest i harrivals hdecode
  rw [step_command harrivals]
  simp only [doCommand, hdecode]

/-- Settles O44 (R84, R205): a request without a row is refused. -/
theorem stepRefusesUndefinedRequests : Obligations.StepRefusesUndefinedRequests := by
  intro s r rest why harrivals hdecode
  rw [step_command harrivals]
  simp only [doCommand, hdecode]
  rfl

/-- Settles O45 (R56, R212): each kind of arrival is taken and answers a next state. -/
theorem stepAlwaysAnswersLawfulClients : Obligations.StepAlwaysAnswersLawfulClients := by
  intro s hlegal
  have tail_legal : arrivalsLegal s.arrivals.tail := fun e he => hlegal e (List.mem_of_mem_tail he)
  match harrivals : s.arrivals with
  | [] => exact ⟨s, step_nil harrivals, harrivals, by simpa [harrivals] using tail_legal⟩
  | .command r :: rest =>
    obtain ⟨t, ht, -, hrest⟩ := doCommand_next r { s with arrivals := rest }
    rw [harrivals] at tail_legal
    exact ⟨t, (step_command harrivals).trans ht, hrest, hrest ▸ tail_legal⟩
  | .envWrite w :: rest =>
    rw [harrivals] at tail_legal hlegal
    exact ⟨_, step_envWrite harrivals (hlegal _ List.mem_cons_self), rfl, tail_legal⟩

/-- A step answers a next state, or its arrival is an environment write that is not legal and the
machine stops with its one fault (log 14). -/
theorem step_outcome (s : State) :
    ((∃ t, step s = .next t) ∧
        ∀ w rest, s.arrivals = .envWrite w :: rest → w.legal = true) ∨
      (step s = .fault .illTypedEnvWrite ∧
        ∃ w rest, s.arrivals = .envWrite w :: rest ∧ w.legal = false) := by
  match harrivals : s.arrivals with
  | [] => exact .inl ⟨⟨s, step_nil harrivals⟩, nofun⟩
  | .command r :: rest =>
    obtain ⟨t, ht, -⟩ := doCommand_next r { s with arrivals := rest }
    exact .inl ⟨⟨t, (step_command harrivals).trans ht⟩, nofun⟩
  | .envWrite w :: rest =>
    cases hw : w.legal with
    | true =>
      refine .inl ⟨⟨_, step_envWrite harrivals hw⟩, fun w' rest' heq => ?_⟩
      cases heq
      exact hw
    | false => exact .inr ⟨step_envWrite_illegal harrivals hw, w, rest, rfl, hw⟩

/-- Settles O46 (log 14): only an environment write that is not legal stops the machine, and it
does so with the one fault. -/
theorem stepStopsOnlyOnIllTypedEnvWrites : Obligations.StepStopsOnlyOnIllTypedEnvWrites := by
  intro s
  obtain ⟨⟨t, hstep⟩, hlawful⟩ | ⟨hstep, hillegal⟩ := step_outcome s
  · refine ⟨fun r => by simp [hstep], fun r => ⟨fun hfault => by simp [hstep] at hfault, ?_⟩⟩
    rintro ⟨-, w, rest, harrivals, hw⟩
    simp [hlawful w rest harrivals] at hw
  · refine ⟨fun r => by simp [hstep], fun r => ⟨fun hfault => ?_, fun ⟨hr, _⟩ => hr ▸ hstep⟩⟩
    exact ⟨Host.Outcome.fault.inj (hfault.symm.trans hstep), hillegal⟩

/-! ### What every step keeps -/

/-- An operation keeps the shape of the state: it answers, or PARSE commits a merge. -/
theorem State.wf_exec {i : Instr} {s t : State} (hwf : s.wf) (h : exec i s = .next t) : t.wf := by
  obtain ⟨r, rfl, -, -⟩ | ⟨-, m, tag, hmerge, rfl⟩ := exec_cases h
  · exact hwf
  · exact ⟨hwf.1, hmerge.wf hwf.2⟩

/-- Settles O56 (10_state.md sections 2 and 3): each thing that a step can do keeps the shape. -/
theorem stepKeepsStateWellFormed : Obligations.StepKeepsStateWellFormed := by
  intro s t hwf hstep
  obtain ⟨-, rfl⟩ | ⟨r, rest, i, -, -, hexec⟩ | ⟨r, rest, why, -, -, rfl⟩ |
    ⟨w, rest, -, hlegal, rfl⟩ := step_cases hstep
  · exact hwf
  · exact State.wf_exec (s := { s with arrivals := rest }) hwf hexec
  · exact hwf
  · exact ⟨hwf.1, EnvWrite.wf_apply hwf.2 hlegal⟩

/-- Settles O54 (R28, R29, R232): nothing that a step can do writes the parameters. -/
theorem stepKeepsTheParameters : Obligations.StepKeepsTheParameters := by
  intro s t hstep
  obtain ⟨-, rfl⟩ | ⟨r, rest, i, -, -, hexec⟩ | ⟨r, rest, why, -, -, rfl⟩ |
    ⟨w, rest, -, -, rfl⟩ := step_cases hstep
  · rfl
  · obtain ⟨-, r, -, honly⟩ := onlyParseWritesAndOnlyItsTag i _ t hexec
    exact honly.config
  · rfl
  · rfl

/-- Settles O53 (R25, D18): no effect tag names bank or program, so only the environment's own
write of them is left. -/
theorem onlyTheEnvironmentMovesBankAndProgram :
    Obligations.OnlyTheEnvironmentMovesBankAndProgram := by
  intro s t hstep
  obtain ⟨-, rfl⟩ | ⟨r, rest, i, -, -, hexec⟩ | ⟨r, rest, why, -, -, rfl⟩ |
    ⟨w, rest, harrivals, -, rfl⟩ := step_cases hstep
  · exact ⟨absurd rfl, absurd rfl⟩
  · obtain ⟨-, r, -, honly⟩ := onlyParseWritesAndOnlyItsTag i _ t hexec
    exact ⟨absurd honly.mirror.bank, absurd honly.mirror.program⟩
  · exact ⟨absurd rfl, absurd rfl⟩
  · cases w with
    | bank v => exact ⟨fun _ => ⟨v, rest, harrivals, rfl⟩, absurd rfl⟩
    | program v => exact ⟨absurd rfl, fun _ => ⟨v, rest, harrivals, rfl⟩⟩
    | editParam | editSeq | cellParams | cellName => exact ⟨absurd rfl, absurd rfl⟩

end Sys2Proof.Machine

/-! The elements of the mirror one by one (10_state.md R26, R34, R36): what the environment's
writes set, which entries stay known, and what reset leaves. -/

namespace Sys2Proof.Machine

/-! ### Writes of a cell's parts -/

/-- Writing a cell's params, known or not, leaves every other element (R33, R34). -/
theorem Mirror.sameOutside_setCellParams (m : Mirror) {b p : Nat} (hp : p < 128)
    (v : Option (List Byte)) : Mirror.SameOutside (.cellParams b p) m (m.setCellParams b p v) where
  editParam _ _ _ := rfl
  editSeq _ _ _ := rfl
  mainParam _ _ _ := rfl
  bank := rfl
  program := rfl
  cellParams b' _ p' hp' hother := by
    refine Mirror.cellParams_setCellParams_ne _ _ _ _ _ _ fun hplace => ?_
    obtain ⟨rfl, rfl⟩ := cellIndex_inj hp' hp hplace
    simp [Tag.namesCellParams] at hother
  cellName _ _ _ _ _ := Mirror.cellName_setCellParams ..
  wave _ _ _ := rfl

/-- Writing a cell's name, known or not, leaves every other element (R33, R34). -/
theorem Mirror.sameOutside_setCellName (m : Mirror) {b p : Nat} (hp : p < 128)
    (v : Option (List Byte)) : Mirror.SameOutside (.cellName b p) m (m.setCellName b p v) where
  editParam _ _ _ := rfl
  editSeq _ _ _ := rfl
  mainParam _ _ _ := rfl
  bank := rfl
  program := rfl
  cellParams _ _ _ _ _ := Mirror.cellParams_setCellName ..
  cellName b' _ p' hp' hother := by
    refine Mirror.cellName_setCellName_ne _ _ _ _ _ _ fun hplace => ?_
    obtain ⟨rfl, rfl⟩ := cellIndex_inj hp' hp hplace
    simp [Tag.namesCellName] at hother
  wave _ _ _ := rfl

/-- Settles O47 (R34, log 14): a legal write is made, and each write of an element sets it and
leaves the others. -/
theorem envWritesSetTheirElement : Obligations.EnvWritesSetTheirElement := by
  intro s rest hwf
  obtain ⟨hparam, hseq, -, hcells, -⟩ := hwf
  refine ⟨fun i v hi harrivals => ?_, fun i v hi harrivals => ?_,
    fun b p v hb hp hv harrivals => ?_, fun b p v hb hp hv harrivals => ?_,
    fun v harrivals => step_envWrite harrivals rfl, fun v harrivals => step_envWrite harrivals rfl⟩
  · exact ⟨_, step_envWrite harrivals (decide_eq_true hi),
      Mirror.editParam_setEditParam _ _ _ (hparam ▸ hi), (Merged.progParam i v hi).sameOutside⟩
  · exact ⟨_, step_envWrite harrivals (decide_eq_true hi),
      Mirror.editSeq_setEditSeq _ _ _ (hseq ▸ hi), (Merged.seqStep i v hi).sameOutside⟩
  · exact ⟨_, step_envWrite harrivals (decide_eq_true ⟨hb, hp, hv⟩),
      Mirror.cellParams_setCellParams _ _ _ _ (hcells ▸ cellIndex_lt hb hp),
      Mirror.sameOutside_setCellParams _ hp v⟩
  · exact ⟨_, step_envWrite harrivals (decide_eq_true ⟨hb, hp, hv⟩),
      Mirror.cellName_setCellName _ _ _ _ (hcells ▸ cellIndex_lt hb hp),
      Mirror.sameOutside_setCellName _ hp v⟩

/-! ### Known entries -/

/-- Outside the matrix a read answers unknown, so a cell with a known part is in it. -/
theorem Mirror.cellIndex_lt_of_known {m : Mirror} {b p : Nat}
    (h : m.cellParams b p ≠ none ∨ m.cellName b p ≠ none) : cellIndex b p < m.cells.length := by
  by_contra hout
  simp [Mirror.cellParams, Mirror.cellName, List.getD, List.getElem?_eq_none (Nat.not_lt.mp hout)]
    at h

theorem Mirror.lt_of_wave_known {m : Mirror} {w : Nat} (h : m.wave w ≠ none) :
    w < m.waves.length := by
  by_contra hout
  simp [Mirror.wave, List.getD, List.getElem?_eq_none (Nat.not_lt.mp hout)] at h

/-- No merge makes a cell's params unknown: the one that writes them writes known bytes (R26). -/
theorem Merged.cellParams_known {m m' : Mirror} {tag : Tag} (h : Merged m m' tag) {b p : Nat}
    (hb : b < 4) (hp : p < 128) (hknown : m.cellParams b p ≠ none) :
    m'.cellParams b p ≠ none := by
  cases hnames : tag.namesCellParams b p with
  | false => rwa [h.sameOutside.cellParams b hb p hp hnames]
  | true =>
    cases h with
    | programDump b' p' u =>
      obtain ⟨rfl, rfl⟩ : b = b' ∧ p = p' := by simpa [Tag.namesCellParams] using hnames
      rw [Mirror.cellParams_setCellParams _ _ _ _ (Mirror.cellIndex_lt_of_known (.inl hknown))]
      nofun
    | _ => cases hnames

/-- No merge makes a cell's name unknown (R26). -/
theorem Merged.cellName_known {m m' : Mirror} {tag : Tag} (h : Merged m m' tag) {b p : Nat}
    (hb : b < 4) (hp : p < 128) (hknown : m.cellName b p ≠ none) : m'.cellName b p ≠ none := by
  cases hnames : tag.namesCellName b p with
  | false => rwa [h.sameOutside.cellName b hb p hp hnames]
  | true =>
    cases h with
    | nameDump b' p' n =>
      obtain ⟨rfl, rfl⟩ : b = b' ∧ p = p' := by simpa [Tag.namesCellName] using hnames
      rw [Mirror.cellName_setCellName _ _ _ _ (Mirror.cellIndex_lt_of_known (.inr hknown))]
      nofun
    | _ => cases hnames

/-- No merge makes a waveshape unknown (R167). -/
theorem Merged.wave_known {m m' : Mirror} {tag : Tag} (h : Merged m m' tag) {w : Nat}
    (hw : w < 128) (hknown : m.wave w ≠ none) : m'.wave w ≠ none := by
  cases hnames : tag.namesWave w with
  | false => rwa [h.sameOutside.wave w hw hnames]
  | true =>
    cases h with
    | waveDump w' pts =>
      obtain rfl : w = w' := by simpa [Tag.namesWave] using hnames
      rw [Mirror.wave_setWave _ _ _ (Mirror.lt_of_wave_known hknown)]
      nofun
    | _ => cases hnames

/-- Settles O52 (R26, R167): an operation leaves the mirror, or commits one merge. -/
theorem knownEntriesStayKnown : Obligations.KnownEntriesStayKnown := by
  intro i s t hexec b p w hb hp hw
  obtain ⟨r, rfl, -, -⟩ | ⟨-, m, tag, hmerge, rfl⟩ := exec_cases hexec
  · exact ⟨id, id, id⟩
  · exact ⟨hmerge.cellParams_known hb hp, hmerge.cellName_known hb hp, hmerge.wave_known hw⟩

/-! ### Reset and the parameters -/

/-- Settles O57 (R36): the default parameters are legal, and the mirror after reset has its
shape. -/
theorem resetStateIsWellFormed : Obligations.ResetStateIsWellFormed :=
  ⟨⟨rfl, by decide, le_rfl, List.length_range, List.nodup_range, List.length_range,
    List.nodup_range⟩, Mirror.wf_reset⟩

/-- A read at any place of a region that holds one value throughout, and of the same default. -/
theorem getD_replicate_default {α : Type} (n i : Nat) (v : α) :
    (List.replicate n v).getD i v = v := by
  rw [List.getD, List.getElem?_replicate]
  split <;> rfl

/-- Settles O58 (R36, D9): every region holds its reset value throughout. -/
theorem resetLeavesTheMirrorEmpty : Obligations.ResetLeavesTheMirrorEmpty := by
  have cell_unknown : ∀ b p, State.reset.mirror.cells.getD (cellIndex b p) ⟨none, none⟩ =
      ⟨none, none⟩ := fun b p => getD_replicate_default 512 _ _
  refine ⟨fun i _ => getD_replicate_default 128 i 0, fun i _ => getD_replicate_default 64 i 0,
    fun i _ => getD_replicate_default 16 i 0, rfl, rfl, fun b p _ _ => ⟨?_, ?_⟩,
    fun w _ => getD_replicate_default 128 w none⟩
  · rw [Mirror.cellParams, cell_unknown]
  · rw [Mirror.cellName, cell_unknown]

/-- A schema table without repetitions and its inverse undo each other, within its length
(R28, R114). -/
theorem table_lookups_inverse {l : List Nat} {n : Nat} (hlen : l.length = n) (hnodup : l.Nodup) :
    (∀ i, i < n → ∃ id, l[i]? = some id ∧ l.idxOf? id = some i) ∧
      (∀ id i, l.idxOf? id = some i → i < n ∧ l[i]? = some id) ∧ ∀ i, n ≤ i → l[i]? = none := by
  subst hlen
  refine ⟨fun i hi => ⟨l[i], List.getElem?_eq_getElem hi, ?_⟩, fun id i hidx => ?_,
    fun i hi => List.getElem?_eq_none hi⟩
  · refine List.idxOf?_eq_some_iff.mpr ⟨hi, rfl, fun j hj heq => ?_⟩
    exact hj.ne (hnodup.getElem_inj_iff.mp heq)
  · obtain ⟨hi, heq, -⟩ := List.idxOf?_eq_some_iff.mp hidx
    exact ⟨hi, by rw [List.getElem?_eq_getElem hi, heq]⟩

/-- Settles O55 (R28, R114): both schema tables are such tables. -/
theorem schemaLookupsAreInverse : Obligations.SchemaLookupsAreInverse := by
  intro c hwf
  obtain ⟨-, -, -, hprogLen, hprogNodup, hmainLen, hmainNodup⟩ := hwf
  obtain ⟨prog_id, prog_idx, prog_out⟩ := table_lookups_inverse hprogLen hprogNodup
  exact ⟨prog_id, prog_idx, prog_out, table_lookups_inverse hmainLen hmainNodup⟩

/-- The status that a code of R30 stands for. -/
def Status.ofCode : Nat → Status
  | 0 => .ok
  | 1 => .range
  | 2 => .overflow
  | 3 => .unrecognized
  | 4 => .foreign
  | _ => .refused

theorem Status.ofCode_code (status : Status) : Status.ofCode status.code = status := by
  cases status <;> rfl

/-- Settles O59 (R30, D16): a code tells its status. -/
theorem statusesHaveTheirCodes : Obligations.StatusesHaveTheirCodes :=
  ⟨rfl, fun _ _ hcode => Function.LeftInverse.injective Status.ofCode_code hcode⟩

end Sys2Proof.Machine

/-! The decoder and the encoder (30_encoding.md sections 1, 3 and 4): each operand list that a row
takes, the payload of a PARSE row, and that decoding and encoding undo each other. -/

namespace Sys2Proof

/-! ### Operand lists: what a row that decodes has taken (R82) -/

section Operands

variable {i : Instr} {ops : List Operand}

theorem takeNone_ok {mk : Instr} (h : takeNone mk ops = .ok i) : ops = [] ∧ mk = i := by
  unfold takeNone at h
  split at h
  · exact ⟨rfl, Except.ok.inj h⟩
  · cases h

theorem takeByte_ok {mk : Byte → Instr} (h : takeByte mk ops = .ok i) :
    ∃ v, ops = [.byte v] ∧ mk v = i := by
  unfold takeByte at h
  split at h
  · exact ⟨_, rfl, Except.ok.inj h⟩
  · cases h

theorem takeByteByte_ok {mk : Byte → Byte → Instr} (h : takeByteByte mk ops = .ok i) :
    ∃ v w, ops = [.byte v, .byte w] ∧ mk v w = i := by
  unfold takeByteByte at h
  split at h
  · exact ⟨_, _, rfl, Except.ok.inj h⟩
  · cases h

theorem takeBytes_ok {mk : List Byte → Instr} (h : takeBytes mk ops = .ok i) :
    ∃ bs, ops = [.bytes bs] ∧ mk bs = i := by
  unfold takeBytes at h
  split at h
  · exact ⟨_, rfl, Except.ok.inj h⟩
  · cases h

theorem takeBytesBytes_ok {mk : List Byte → List Byte → Instr}
    (h : takeBytesBytes mk ops = .ok i) :
    ∃ bs cs, ops = [.bytes bs, .bytes cs] ∧ mk bs cs = i := by
  unfold takeBytesBytes at h
  split at h
  · exact ⟨_, _, rfl, Except.ok.inj h⟩
  · cases h

theorem takeCodes_ok {mk : List Nat → Instr} (h : takeCodes mk ops = .ok i) :
    ∃ cs, ops = [.codes cs] ∧ mk cs = i := by
  unfold takeCodes at h
  split at h
  · exact ⟨_, rfl, Except.ok.inj h⟩
  · cases h

theorem takeAddr_ok {mk : Nat → Instr} (h : takeAddr mk ops = .ok i) :
    ∃ a, ops = [.addr a] ∧ mk a = i := by
  unfold takeAddr at h
  split at h
  · exact ⟨_, rfl, Except.ok.inj h⟩
  · cases h

theorem takeAddrByte_ok {mk : Nat → Byte → Instr} (h : takeAddrByte mk ops = .ok i) :
    ∃ a v, ops = [.addr a, .byte v] ∧ mk a v = i := by
  unfold takeAddrByte at h
  split at h
  · exact ⟨_, _, rfl, Except.ok.inj h⟩
  · cases h

theorem takeAddrPoints_ok {mk : Nat → List Point → Instr} (h : takeAddrPoints mk ops = .ok i) :
    ∃ a ps, ops = [.addr a, .points ps] ∧ mk a ps = i := by
  unfold takeAddrPoints at h
  split at h
  · exact ⟨_, _, rfl, Except.ok.inj h⟩
  · cases h

theorem takeAddrAddr_ok {mk : Nat → Nat → Instr} (h : takeAddrAddr mk ops = .ok i) :
    ∃ a b, ops = [.addr a, .addr b] ∧ mk a b = i := by
  unfold takeAddrAddr at h
  split at h
  · exact ⟨_, _, rfl, Except.ok.inj h⟩
  · cases h

theorem takeAddrAddrCodes_ok {mk : Nat → Nat → List Nat → Instr}
    (h : takeAddrAddrCodes mk ops = .ok i) :
    ∃ a b cs, ops = [.addr a, .addr b, .codes cs] ∧ mk a b cs = i := by
  unfold takeAddrAddrCodes at h
  split at h
  · exact ⟨_, _, _, rfl, Except.ok.inj h⟩
  · cases h

theorem takeAddrAddrBytesBytes_ok {mk : Nat → Nat → List Byte → List Byte → Instr}
    (h : takeAddrAddrBytesBytes mk ops = .ok i) :
    ∃ a b bs cs, ops = [.addr a, .addr b, .bytes bs, .bytes cs] ∧ mk a b bs cs = i := by
  unfold takeAddrAddrBytesBytes at h
  split at h
  · exact ⟨_, _, _, _, rfl, Except.ok.inj h⟩
  · cases h

end Operands

/-! ### The payload of a PARSE row -/

/-- The payload that a PARSE row's fields make up (R74). -/
def Instr.payload : Instr → List Byte
  | .parseProgParam index lo hi => [index, lo, hi]
  | .parseProgramDump bank program packed => bank :: program :: packed
  | .parseEditDump packed => packed
  | .parseSeqStep step lo hi => [step, lo, hi]
  | .parseMainParam index lo hi => [index, lo, hi]
  | .parseWaveDump waveshape packed => waveshape :: packed
  | .parseMainDump nibbles => nibbles
  | .parseNameDump bank program name => bank :: program :: name
  | _ => []

section Rows

variable {i : Instr} {id : Byte}

/-- A PARSE row encodes to PARSE of its frame (R70, R74). -/
theorem encode_row (sysid : List Byte) (h : i.inboundId = some id) :
    encode sysid i = ⟨0x700, [.bytes (frame sysid id i.payload)]⟩ := by
  cases i <;> cases h <;> rfl

/-- A PARSE row is the row of its identifier and payload (R74). -/
theorem decodeBody_payload (h : i.inboundId = some id) : decodeBody id i.payload = some i := by
  cases i <;> cases h <;> rfl

/-- A PARSE row is well formed exactly if its frame passes the body checks (R163, R173). -/
theorem row_wf_iff (c : Config) (h : i.inboundId = some id) :
    i.wf c = true ↔ bodyCheck id i.payload = .ok () := by
  rw [Machine.bodyCheck_ok_iff]
  cases i <;> cases h <;>
    simp [Instr.wf, Instr.payload, allWire, isWire, inboundPayloadLen, and_assoc] <;>
    exact fun _ => eq_comm

/-- The frame of a well-formed PARSE row decodes to the row (R160). -/
theorem decodeFrame_row {c : Config} (hsysid : c.sysid.length = 3) (h : i.inboundId = some id)
    (hwf : i.wf c = true) : decodeFrame c.sysid (frame c.sysid id i.payload) = some i := by
  have accepted := (Machine.frameCheck_ok_iff hsysid).mpr ⟨rfl, (row_wf_iff c h).mp hwf⟩
  simp only [decodeFrame, accepted, decodeBody_payload h]

end Rows

/-! ### Decoding what was encoded -/

/-- Command word 0x700 takes one frame and decodes to the frame's row, or to PARSE itself
(log 11). -/
theorem decode_parse (sysid f : List Byte) :
    decode sysid ⟨0x700, [.bytes f]⟩ = .ok (parseRow sysid f) :=
  Machine.decode_op (op := 0x7) (by decide) (by decide) (by decide) (by decide)

/-- A codec or assembler operation has its command word for itself, so its request decodes to it
whatever its operands (R82, R83). -/
theorem decode_encode_of_not_parse (sysid : List Byte) {i : Instr} (h : i.isParse = false) :
    decode sysid (encode sysid i) = .ok i := by
  cases i with
  | parse | parseProgParam | parseProgramDump | parseEditDump | parseSeqStep | parseMainParam
  | parseWaveDump | parseMainDump | parseNameDump => cases h
  | nibEnc v => exact Machine.decode_nibEnc sysid v
  | nibDec lo hi => exact Machine.decode_nibDec sysid lo hi
  | msbPack u => exact Machine.decode_msbPack sysid u
  | msbUnpack w => exact Machine.decode_msbUnpack sysid w
  | strEnc name => exact Machine.decode_strEnc sysid name
  | strDec b => exact Machine.decode_strDec sysid b
  | _ => exact Machine.decode_asm (by decide) rfl

/-- PARSE and its rows differ in that a row has an identifier. -/
theorem inboundId_of_isParse {i : Instr} (h : i.isParse = true) (hparse : ∀ f, i ≠ .parse f) :
    ∃ id, i.inboundId = some id := by
  cases i with
  | parse f => exact absurd rfl (hparse f)
  | parseProgParam | parseProgramDump | parseEditDump | parseSeqStep | parseMainParam
  | parseWaveDump | parseMainDump | parseNameDump => exact ⟨_, rfl⟩
  | _ => cases h

/-- Settles O39 (D6, log 11): a command word of its own, or the frame that selects the row. -/
theorem decodeInvertsEncode : Obligations.DecodeInvertsEncode := by
  intro c i hconfig hwf hparse
  cases hkind : i.isParse with
  | false => exact decode_encode_of_not_parse c.sysid hkind
  | true =>
    obtain ⟨id, hid⟩ := inboundId_of_isParse hkind hparse
    rw [encode_row c.sysid hid, decode_parse, parseRow, decodeFrame_row hconfig.1 hid hwf]
    rfl

/-! ### Encoding what was decoded -/

/-- A frame is what its row encodes to, and what PARSE itself encodes to (log 11). -/
theorem encode_parseRow (sysid f : List Byte) :
    encode sysid (parseRow sysid f) = ⟨0x700, [.bytes f]⟩ := by
  unfold parseRow decodeFrame
  split
  · next id p hcheck =>
    obtain ⟨rfl, hbody⟩ :=
      (Machine.frameCheck_ok_iff (frameCheck_sysid hcheck)).mp hcheck
    obtain ⟨i, hi, hencode, -⟩ := Machine.decodeBody_row hbody
    rw [hi]
    exact hencode sysid
  · rfl

/-- What a request that decodes has passed: ASM's op and its kind's row, or kind 0x00 and the row
of its op (R81, R84). -/
theorem decode_ok_cases {sysid : List Byte} {cmd : CommandWord} {ops : List Operand} {i : Instr}
    (h : decode sysid ⟨cmd, ops⟩ = .ok i) :
    (opField cmd = 0x6 ∧ decodeAsm (kindField cmd) ops = .ok i) ∨
      ((kindField cmd).toNat = 0x00 ∧ decodeOp sysid (opField cmd) ops = .ok i) := by
  unfold decode at h
  split at h
  · next hasm => exact .inl ⟨hasm, h⟩
  · split at h
    · cases h
    · split at h
      · cases h
      · next hkind => exact .inr ⟨by rw [not_not.mp hkind]; rfl, h⟩

/-- ASM's rows encode to the kind they were decoded from, with its operands (R83). -/
theorem encode_of_decodeAsm (sysid : List Byte) {cmd : CommandWord} {ops : List Operand}
    {i : Instr} (hop : opField cmd = 0x6) (h : decodeAsm (kindField cmd) ops = .ok i) :
    encode sysid i = ⟨cmd, ops⟩ := by
  have word {kind : Nat} (hkind : (kindField cmd).toNat = kind) :
      cmd = BitVec.ofNat 12 (0x600 + kind) := cmd_of_fields hop hkind rfl
  unfold decodeAsm at h
  split at h <;> rename_i hkind
  · obtain ⟨_, _, rfl, rfl⟩ := takeAddrByte_ok h; rw [word hkind]; rfl
  · obtain ⟨_, _, _, _, rfl, rfl⟩ := takeAddrAddrBytesBytes_ok h; rw [word hkind]; rfl
  · obtain ⟨_, _, rfl, rfl⟩ := takeBytesBytes_ok h; rw [word hkind]; rfl
  · obtain ⟨rfl, rfl⟩ := takeNone_ok h; rw [word hkind]; rfl
  · obtain ⟨_, _, rfl, rfl⟩ := takeAddrAddr_ok h; rw [word hkind]; rfl
  · obtain ⟨rfl, rfl⟩ := takeNone_ok h; rw [word hkind]; rfl
  · obtain ⟨_, _, rfl, rfl⟩ := takeAddrByte_ok h; rw [word hkind]; rfl
  · obtain ⟨_, _, rfl, rfl⟩ := takeAddrByte_ok h; rw [word hkind]; rfl
  · obtain ⟨_, _, rfl, rfl⟩ := takeAddrPoints_ok h; rw [word hkind]; rfl
  · obtain ⟨_, rfl, rfl⟩ := takeAddr_ok h; rw [word hkind]; rfl
  · obtain ⟨rfl, rfl⟩ := takeNone_ok h; rw [word hkind]; rfl
  · obtain ⟨_, rfl, rfl⟩ := takeBytes_ok h; rw [word hkind]; rfl
  · obtain ⟨_, _, rfl, rfl⟩ := takeAddrAddr_ok h; rw [word hkind]; rfl
  · obtain ⟨_, _, _, rfl, rfl⟩ := takeAddrAddrCodes_ok h; rw [word hkind]; rfl
  · obtain ⟨rfl, rfl⟩ := takeNone_ok h; rw [word hkind]; rfl
  · obtain ⟨rfl, rfl⟩ := takeNone_ok h; rw [word hkind]; rfl
  · obtain ⟨rfl, rfl⟩ := takeNone_ok h; rw [word hkind]; rfl
  · cases h

/-- The other ops' rows encode to the op they were decoded from, a frame's row to the frame (R82,
log 11). -/
theorem encode_of_decodeOp {sysid : List Byte} {cmd : CommandWord} {ops : List Operand}
    {i : Instr} (hkind : (kindField cmd).toNat = 0x00)
    (h : decodeOp sysid (opField cmd) ops = .ok i) : encode sysid i = ⟨cmd, ops⟩ := by
  have word {op : Nat} (hop : opField cmd = op) :
      cmd = BitVec.ofNat 12 (0x100 * op) := cmd_of_fields hop hkind rfl
  unfold decodeOp at h
  split at h <;> rename_i hop
  · obtain ⟨_, rfl, rfl⟩ := takeByte_ok h; rw [word hop]; rfl
  · obtain ⟨_, _, rfl, rfl⟩ := takeByteByte_ok h; rw [word hop]; rfl
  · obtain ⟨_, rfl, rfl⟩ := takeBytes_ok h; rw [word hop]; rfl
  · obtain ⟨_, rfl, rfl⟩ := takeBytes_ok h; rw [word hop]; rfl
  · obtain ⟨_, rfl, rfl⟩ := takeCodes_ok h; rw [word hop]; rfl
  · obtain ⟨_, rfl, rfl⟩ := takeBytes_ok h; rw [word hop]; rfl
  · obtain ⟨f, rfl, rfl⟩ := takeBytes_ok h; rw [word hop, encode_parseRow]; rfl
  · cases h

/-- Settles O40 (D6): the row a request decodes to holds its command word and all its operands. -/
theorem encodeInvertsDecode : Obligations.EncodeInvertsDecode := by
  intro sysid r i h
  obtain ⟨cmd, ops⟩ := r
  obtain ⟨hasm, hrow⟩ | ⟨hkind, hrow⟩ := decode_ok_cases h
  · exact encode_of_decodeAsm sysid hasm hrow
  · exact encode_of_decodeOp hkind hrow

/-! ### Command words -/

/-- The 24 command words of the interface (R82, R83). -/
def definedWords : List CommandWord :=
  [0x000, 0x100, 0x200, 0x300, 0x400, 0x500, 0x601, 0x602, 0x603, 0x604, 0x605, 0x606, 0x608,
    0x609, 0x60A, 0x60B, 0x60E, 0x60F, 0x610, 0x611, 0x612, 0x613, 0x614, 0x700]

/-- Every operation encodes to a defined command word. -/
theorem encode_cmd_mem_definedWords (sysid : List Byte) (i : Instr) :
    (encode sysid i).cmd ∈ definedWords := by
  cases i <;> simp [encode, definedWords]

/-- Settles O41 (D6): a request that decodes carries the command word its operation encodes to. -/
theorem undefinedCommandWordsAreRejected : Obligations.UndefinedCommandWordsAreRejected := by
  intro sysid cmd ops hundefined
  cases hdecode : decode sysid ⟨cmd, ops⟩ with
  | error why => exact ⟨why, rfl⟩
  | ok i =>
    have hdefined := encode_cmd_mem_definedWords sysid i
    rw [encodeInvertsDecode sysid _ i hdecode] at hdefined
    exact absurd hdefined hundefined

/-- Settles O42 (D6, log 11): two codec requests and two assembler requests by their command
words, a frame by its row, and a frame that no row has. -/
theorem writtenOutRequestsDecode : Obligations.WrittenOutRequestsDecode :=
  ⟨Machine.decode_nibEnc _ _, Machine.decode_msbPack _ _, Machine.decode_asm (by decide) rfl,
    Machine.decode_asm (by decide) rfl, decode_parse _ _, decode_parse _ _⟩

end Sys2Proof

/-! The frames that operations answer (41_assembler.md; 30_encoding.md R70, R74): the requests and
controls, which operations answer a frame at all, and that every frame keeps the wire format. -/

namespace Sys2Proof.Machine

/-! ### Requests and controls -/

/-- Settles O20 (R136 to R140, D22): each request has its address checks, then its frame. -/
theorem asmRequestsCarryTheirAddresses : Obligations.AsmRequestsCarryTheirAddresses := by
  intro bank program waveshape s
  refine ⟨fun hbank hprogram => ⟨?_, ?_⟩, fun hwave => ?_, rfl, rfl, fun hbank => ⟨?_, ?_⟩,
    fun hbank hprogram => ⟨?_, ?_⟩, fun hwave => ?_⟩
  · exact finish_checkCell_ok hbank hprogram _ s
  · exact finish_checkCell_ok hbank hprogram _ s
  · exact finish_checkBelow_ok hwave _ s
  · exact finish_checkBelow_range hbank _ s
  · exact finish_checkBelow_range hbank _ s
  · exact finish_checkCell_program hbank hprogram _ s
  · exact finish_checkCell_program hbank hprogram _ s
  · exact finish_checkBelow_range hwave _ s

/-- Settles O21 (R150 to R153, D21): a control command has no checks. -/
theorem asmControlsAreIdentifierOnlyFrames : Obligations.AsmControlsAreIdentifierOnlyFrames :=
  fun _ => ⟨rfl, rfl, rfl, rfl⟩

/-! ### Answered frames -/

/-- The operation answers OK with the frame. -/
def Assembles (i : Instr) (s : State) (f : List Byte) : Prop :=
  ∃ t info tag, exec i s = .next t ∧ t.response = some ⟨.ok, info, .frame f, tag⟩

/-- A PARSE answers no result, so no frame. -/
theorem not_assembles_of_isParse {i : Instr} {s : State} {f : List Byte}
    (hparse : i.isParse = true) : ¬Assembles i s f := by
  rintro ⟨t, info, tag, hexec, hresponse⟩
  obtain ⟨x, hx, -⟩ := exec_parse_eq_finishParse (s := s) hparse rfl rfl
  obtain ⟨m, tag', -, rfl⟩ | ⟨e, -, rfl⟩ := finishParse_cases (hx.symm.trans hexec) <;>
    simp at hresponse

/-- An operation whose computation is `x` answers a frame only if `x` yields it. -/
theorem Assembles.ok {i : Instr} {s : State} {f : List Byte} {x : Except Err Result}
    (h : Assembles i s f) (hi : exec i s = finish x s) : x = .ok (.frame f) := by
  obtain ⟨t, info, tag, hexec, hresponse⟩ := h
  obtain ⟨r, rfl, rfl⟩ | ⟨e, -, rfl⟩ := finish_cases (hi.symm.trans hexec)
  · simp only [State.answer_response, Option.some.injEq, Response.mk.injEq] at hresponse
    rw [hresponse.2.2.1]
  · simp at hresponse

section Checks

variable {x : Except Err Result} {r : Result}

/-- A computation behind a shape check yields a result only for operands of the shape (R84). -/
theorem checkShape_bind_ok {shape : Bool} (h : (do checkShape shape; x) = .ok r) :
    shape = true ∧ x = .ok r := by
  cases shape with
  | true => exact ⟨rfl, h⟩
  | false => cases h

/-- A computation behind an address check yields a result only within the range (R78, R130). -/
theorem checkBelow_bind_ok {limit n : Nat} (h : (do checkBelow limit n; x) = .ok r) :
    n < limit ∧ x = .ok r := by
  obtain ⟨hin, hcheck⟩ | ⟨-, hcheck⟩ := checkBelow_cases limit n
  · rw [hcheck, ok_bind] at h
    exact ⟨hin, h⟩
  · rw [hcheck, error_bind] at h
    cases h

theorem checkCell_bind_ok {bank program : Nat}
    (h : (do checkBank bank; checkProgram program; x) = .ok r) :
    bank < 4 ∧ program < 128 ∧ x = .ok r := by
  obtain ⟨hbank, h⟩ := checkBelow_bind_ok h
  exact ⟨hbank, checkBelow_bind_ok h⟩

/-- The frame at the end of an assembler's computation. -/
theorem frame_of_asmFrame_ok {s : State} {id : Byte} {p f : List Byte}
    (h : (pure (asmFrame s id p) : Except Err Result) = .ok (.frame f)) :
    f = frame s.config.sysid id p :=
  (Result.frame.inj (Except.ok.inj h)).symm

end Checks

/-! ### Which frame each kind answers, and under which operands -/

section Kinds

variable {s : State} {f : List Byte}

theorem assembles_asmProgParam {index : Nat} {value : Byte}
    (h : Assembles (.asmProgParam index value) s f) :
    index < 128 ∧ f = frame s.config.sysid 0x01 (addrByte index :: nibPair value) :=
  (checkBelow_bind_ok (h.ok rfl)).imp id frame_of_asmFrame_ok

theorem assembles_asmSeqStep {step : Nat} {value : Byte}
    (h : Assembles (.asmSeqStep step value) s f) :
    step < 64 ∧ f = frame s.config.sysid 0x08 (addrByte step :: nibPair value) :=
  (checkBelow_bind_ok (h.ok rfl)).imp id frame_of_asmFrame_ok

theorem assembles_asmMainParam {index : Nat} {value : Byte}
    (h : Assembles (.asmMainParam index value) s f) :
    index < 16 ∧ f = frame s.config.sysid 0x09 (addrByte index :: nibPair value) :=
  (checkBelow_bind_ok (h.ok rfl)).imp id frame_of_asmFrame_ok

theorem lengths_of_snapshotShape {params seq : List Byte} (h : snapshotShape params seq = true) :
    params.length = 128 ∧ seq.length = 64 := by
  simpa [snapshotShape] using h

theorem assembles_asmProgramDump {bank program : Nat} {params seq : List Byte}
    (h : Assembles (.asmProgramDump bank program params seq) s f) :
    (params.length = 128 ∧ seq.length = 64) ∧ (bank < 4 ∧ program < 128) ∧
      f = frame s.config.sysid 0x02
        (addrByte bank :: addrByte program :: pack (snapshotBytes params seq)) := by
  obtain ⟨hshape, hok⟩ := checkShape_bind_ok (h.ok rfl)
  obtain ⟨hbank, hprogram, hok⟩ := checkCell_bind_ok hok
  exact ⟨lengths_of_snapshotShape hshape, ⟨hbank, hprogram⟩, frame_of_asmFrame_ok hok⟩

theorem assembles_asmEditDump {params seq : List Byte}
    (h : Assembles (.asmEditDump params seq) s f) :
    (params.length = 128 ∧ seq.length = 64) ∧
      f = frame s.config.sysid 0x03 (pack (snapshotBytes params seq)) :=
  (checkShape_bind_ok (h.ok rfl)).imp lengths_of_snapshotShape frame_of_asmFrame_ok

theorem assembles_asmWaveDump {waveshape : Nat} {pts : List Point}
    (h : Assembles (.asmWaveDump waveshape pts) s f) :
    pts.length = 128 ∧ waveshape < 128 ∧
      f = frame s.config.sysid 0x0A (addrByte waveshape :: pack (bytesOfPoints pts)) := by
  obtain ⟨hshape, hok⟩ := checkShape_bind_ok (h.ok rfl)
  exact ⟨beq_iff_eq.mp hshape, (checkBelow_bind_ok hok).imp id frame_of_asmFrame_ok⟩

theorem assembles_asmMainDump {params : List Byte} (h : Assembles (.asmMainDump params) s f) :
    params.length = 16 ∧ f = frame s.config.sysid 0x0F (params.flatMap nibPair) :=
  (checkShape_bind_ok (h.ok rfl)).imp beq_iff_eq.mp frame_of_asmFrame_ok

/-- STR.ENC encodes exactly the names that fit and hold 7-bit codes (R111). -/
theorem strEnc_eq_ok {name : List Nat} {b : List Byte} (h : strEnc name = .ok b) :
    name.length ≤ 16 ∧ (∀ c ∈ name, c ≤ 127) ∧ b = asciiField name := by
  obtain ⟨-, herr⟩ | ⟨-, c, -, -, herr⟩ | ⟨hlen, hascii, hok⟩ := strEnc_cases name
  · rw [herr] at h; cases h
  · rw [herr] at h; cases h
  · exact ⟨hlen, hascii, (Except.ok.inj (hok.symm.trans h)).symm⟩

theorem assembles_asmNameDump {bank program : Nat} {name : List Nat}
    (h : Assembles (.asmNameDump bank program name) s f) :
    (bank < 4 ∧ program < 128) ∧ (name.length ≤ 16 ∧ ∀ c ∈ name, c ≤ 127) ∧
      f = frame s.config.sysid 0x11 (addrByte bank :: addrByte program :: asciiField name) := by
  obtain ⟨hbank, hprogram, hok⟩ := checkCell_bind_ok (h.ok rfl)
  obtain ⟨b, henc, hok⟩ := bind_ok hok
  obtain ⟨hlen, hascii, rfl⟩ := strEnc_eq_ok henc
  exact ⟨⟨hbank, hprogram⟩, ⟨hlen, hascii⟩, frame_of_asmFrame_ok hok⟩

theorem assembles_asmReqProgram {bank program : Nat}
    (h : Assembles (.asmReqProgram bank program) s f) :
    (bank < 4 ∧ program < 128) ∧
      f = frame s.config.sysid 0x05 [addrByte bank, addrByte program] := by
  obtain ⟨hbank, hprogram, hok⟩ := checkCell_bind_ok (h.ok rfl)
  exact ⟨⟨hbank, hprogram⟩, frame_of_asmFrame_ok hok⟩

theorem assembles_asmReqName {bank program : Nat} (h : Assembles (.asmReqName bank program) s f) :
    (bank < 4 ∧ program < 128) ∧
      f = frame s.config.sysid 0x10 [addrByte bank, addrByte program] := by
  obtain ⟨hbank, hprogram, hok⟩ := checkCell_bind_ok (h.ok rfl)
  exact ⟨⟨hbank, hprogram⟩, frame_of_asmFrame_ok hok⟩

theorem assembles_asmReqWave {waveshape : Nat} (h : Assembles (.asmReqWave waveshape) s f) :
    waveshape < 128 ∧ f = frame s.config.sysid 0x0B [addrByte waveshape] :=
  (checkBelow_bind_ok (h.ok rfl)).imp id frame_of_asmFrame_ok

end Kinds

/-! ### The wire format -/

/-- An address within its range goes out as itself (R78). -/
theorem addrByte_toNat {n : Nat} (h : n < 256) : (addrByte n).toNat = n := by
  simp [addrByte, Nat.mod_eq_of_lt h]

theorem addrByte_wire {n : Nat} (h : n < 128) : (addrByte n).toNat < 128 := by
  rwa [addrByte_toNat (by omega)]

theorem nibPair_nibbles (v : Byte) : ∀ b ∈ nibPair v, b.toNat < 16 := by
  simp [nibPair, lowNibble_lt, highNibble_lt]

theorem flatMap_nibPair_nibbles (vs : List Byte) : ∀ b ∈ vs.flatMap nibPair, b.toNat < 16 := by
  intro b hb
  obtain ⟨v, -, hb⟩ := List.mem_flatMap.mp hb
  exact nibPair_nibbles v b hb

/-- The field of a name of 7-bit codes holds wire bytes only, the padding being spaces (R77). -/
theorem asciiField_wire {name : List Nat} (hascii : ∀ c ∈ name, c ≤ 127) :
    ∀ b ∈ asciiField name, b.toNat < 128 := by
  intro b hb
  obtain hcode | hpad := List.mem_append.mp hb
  · obtain ⟨c, hc, rfl⟩ := List.mem_map.mp hcode
    have := hascii c hc
    rw [BitVec.toNat_ofNat]
    omega
  · rw [List.eq_of_mem_replicate hpad]
    decide

/-- A payload that can stand behind an identifier: of the tabled length, and wire bytes
(R53, R74). -/
structure WirePayload (id : Byte) (p : List Byte) : Prop where
  length : tabledFrameLength id = some (p.length + 4)
  wire : ∀ b ∈ p, b.toNat < 128

/-- Address bytes before data. -/
theorem wire_cons {a : Nat} {p : List Byte} (ha : a < 128) (hp : ∀ b ∈ p, b.toNat < 128) :
    ∀ b ∈ addrByte a :: p, b.toNat < 128 :=
  List.forall_mem_cons.mpr ⟨addrByte_wire ha, hp⟩

/-- Nibbles are wire bytes. -/
theorem wire_of_nibbles {p : List Byte} (h : ∀ b ∈ p, b.toNat < 16) : ∀ b ∈ p, b.toNat < 128 :=
  fun b hb => (h b hb).trans (by decide)

theorem wirePayload_nil {id : Byte} (h : tabledFrameLength id = some 4) : WirePayload id [] :=
  ⟨h, nofun⟩

/-- Every frame an operation answers is SYSID, the kind of its command word, and a payload of
that kind's length that holds wire bytes only (R70, R74, R130). -/
theorem Assembles.wirePayload {i : Instr} {s : State} {f : List Byte} (h : Assembles i s f) :
    ∃ id p, kindField (encode s.config.sysid i).cmd = id ∧ f = frame s.config.sysid id p ∧
      WirePayload id p := by
  cases i with
  | asmProgParam index value =>
    obtain ⟨hindex, rfl⟩ := assembles_asmProgParam h
    exact ⟨0x01, _, (by decide : kindField 0x601 = 0x01), rfl, rfl,
      wire_cons hindex (wire_of_nibbles (nibPair_nibbles value))⟩
  | asmProgramDump bank program params seq =>
    obtain ⟨⟨hparams, hseq⟩, ⟨hbank, hprogram⟩, rfl⟩ := assembles_asmProgramDump h
    refine ⟨0x02, _, (by decide : kindField 0x602 = 0x02), rfl, ?_,
      wire_cons (by omega) (wire_cons hprogram (pack_wire _))⟩
    rw [List.length_cons, List.length_cons, pack_length, snapshotBytes_length hparams hseq]
    rfl
  | asmEditDump params seq =>
    obtain ⟨⟨hparams, hseq⟩, rfl⟩ := assembles_asmEditDump h
    refine ⟨0x03, _, (by decide : kindField 0x603 = 0x03), rfl, ?_, pack_wire _⟩
    rw [pack_length, snapshotBytes_length hparams hseq]
    rfl
  | asmCtrlReset =>
    exact ⟨0x04, [], (by decide : kindField 0x604 = 0x04), frame_of_asmFrame_ok (h.ok rfl),
      wirePayload_nil rfl⟩
  | asmReqProgram bank program =>
    obtain ⟨⟨hbank, hprogram⟩, rfl⟩ := assembles_asmReqProgram h
    exact ⟨0x05, _, (by decide : kindField 0x605 = 0x05), rfl, rfl,
      wire_cons (by omega) (wire_cons hprogram nofun)⟩
  | asmReqEdit =>
    exact ⟨0x06, [], (by decide : kindField 0x606 = 0x06), frame_of_asmFrame_ok (h.ok rfl),
      wirePayload_nil rfl⟩
  | asmSeqStep step value =>
    obtain ⟨hstep, rfl⟩ := assembles_asmSeqStep h
    exact ⟨0x08, _, (by decide : kindField 0x608 = 0x08), rfl, rfl,
      wire_cons (by omega) (wire_of_nibbles (nibPair_nibbles value))⟩
  | asmMainParam index value =>
    obtain ⟨hindex, rfl⟩ := assembles_asmMainParam h
    exact ⟨0x09, _, (by decide : kindField 0x609 = 0x09), rfl, rfl,
      wire_cons (by omega) (wire_of_nibbles (nibPair_nibbles value))⟩
  | asmWaveDump waveshape pts =>
    obtain ⟨hpts, hwave, rfl⟩ := assembles_asmWaveDump h
    refine ⟨0x0A, _, (by decide : kindField 0x60A = 0x0A), rfl, ?_,
      wire_cons hwave (pack_wire _)⟩
    rw [List.length_cons, pack_length, bytesOfPoints_length, hpts]
    rfl
  | asmReqWave waveshape =>
    obtain ⟨hwave, rfl⟩ := assembles_asmReqWave h
    exact ⟨0x0B, _, (by decide : kindField 0x60B = 0x0B), rfl, rfl, wire_cons hwave nofun⟩
  | asmReqMain =>
    exact ⟨0x0E, [], (by decide : kindField 0x60E = 0x0E), frame_of_asmFrame_ok (h.ok rfl),
      wirePayload_nil rfl⟩
  | asmMainDump params =>
    obtain ⟨hparams, rfl⟩ := assembles_asmMainDump h
    refine ⟨0x0F, _, (by decide : kindField 0x60F = 0x0F), rfl, ?_,
      wire_of_nibbles (flatMap_nibPair_nibbles params)⟩
    rw [flatMap_nibPair_length, hparams]
    rfl
  | asmReqName bank program =>
    obtain ⟨⟨hbank, hprogram⟩, rfl⟩ := assembles_asmReqName h
    exact ⟨0x10, _, (by decide : kindField 0x610 = 0x10), rfl, rfl,
      wire_cons (by omega) (wire_cons hprogram nofun)⟩
  | asmNameDump bank program name =>
    obtain ⟨⟨hbank, hprogram⟩, ⟨hlen, hascii⟩, rfl⟩ := assembles_asmNameDump h
    refine ⟨0x11, _, (by decide : kindField 0x611 = 0x11), rfl, ?_,
      wire_cons (by omega) (wire_cons hprogram (asciiField_wire hascii))⟩
    rw [List.length_cons, List.length_cons, asciiField_length hlen]
    rfl
  | asmCtrlStartStop =>
    exact ⟨0x12, [], (by decide : kindField 0x612 = 0x12), frame_of_asmFrame_ok (h.ok rfl),
      wirePayload_nil rfl⟩
  | asmCtrlShiftOn =>
    exact ⟨0x13, [], (by decide : kindField 0x613 = 0x13), frame_of_asmFrame_ok (h.ok rfl),
      wirePayload_nil rfl⟩
  | asmCtrlShiftOff =>
    exact ⟨0x14, [], (by decide : kindField 0x614 = 0x14), frame_of_asmFrame_ok (h.ok rfl),
      wirePayload_nil rfl⟩
  | nibEnc v => cases h.ok (x := .ok (.pair (lowNibble v) (highNibble v))) rfl
  | nibDec | strEnc =>
    obtain ⟨_, -, hok⟩ := bind_ok (h.ok rfl)
    cases hok
  | msbPack | msbUnpack | strDec =>
    obtain ⟨-, hok⟩ := checkShape_bind_ok (h.ok rfl)
    cases hok
  | parse | parseProgParam | parseProgramDump | parseEditDump | parseSeqStep | parseMainParam
  | parseWaveDump | parseMainDump | parseNameDump => exact absurd h (not_assembles_of_isParse rfl)

/-- The kind of every defined command word is a wire byte (R53, R83). -/
theorem kindField_encode_wire (sysid : List Byte) (i : Instr) :
    (kindField (encode sysid i).cmd).toNat < 128 := by
  have defined : ∀ w ∈ definedWords, (kindField w).toNat < 128 := by
    simp [definedWords, kindField]
  exact defined _ (encode_cmd_mem_definedWords sysid i)

/-- Settles O22 (R53, R70, R74): the frame's parts are SYSID, the kind and a wire payload. -/
theorem assembledFramesKeepTheWireFormat : Obligations.AssembledFramesKeepTheWireFormat := by
  intro i s t info f tag hconfig hexec hresponse
  obtain ⟨hsysid, hsysid_wire, -⟩ := hconfig
  obtain ⟨id, p, hid, rfl, hp⟩ := Assembles.wirePayload ⟨t, info, tag, hexec, hresponse⟩
  have lead_eq : (frame s.config.sysid id p).take 3 = s.config.sysid := by
    simp [frame, ← hsysid]
  have id_eq : (frame s.config.sysid id p).getD 3 0 = id := by simp [frame, List.getD, ← hsysid]
  refine ⟨lead_eq, id_eq.trans hid.symm, ?_, fun b hb => ?_⟩
  · rw [id_eq, hp.length]
    simp [frame, hsysid]
    omega
  · obtain hb | hb := List.mem_append.mp hb
    · simpa [isWire] using hsysid_wire b hb
    · obtain rfl | hb := List.mem_cons.mp hb
      · exact hid ▸ kindField_encode_wire _ i
      · exact hp.wire b hb

end Sys2Proof.Machine

/-! The parser (42_parser.md): frames turned away, the eight merges with the mirror that each
leaves or the RANGE error that each answers, and that a second application changes nothing. -/

namespace Sys2Proof.Machine

/-! ### Frames turned away -/

/-- PARSE of a frame that does not pass the checks answers their fault (R160). -/
theorem exec_parse_error {f : List Byte} {s : State} {e : FrameFault}
    (h : frameCheck s.config.sysid f = .error e) :
    exec (.parse f) s = .next (s.raise (frameErr e)) := by
  change execParse f s = _
  simp only [execParse, h, finishParse_error]

/-- A frame that is too short for SYSID or starts otherwise is foreign (R161). -/
theorem frameCheck_foreign {sysid f : List Byte} (h : f.length < 3 ∨ f.take 3 ≠ sysid) :
    frameCheck sysid f = .error .foreign := by
  simp only [frameCheck, if_pos h]

/-- SYSID alone has no identifier (R162). -/
theorem frameCheck_bare {sysid : List Byte} (h : sysid.length = 3) :
    frameCheck sysid sysid = .error (.unrecognized none) := by
  have not_foreign : ¬(sysid.length < 3 ∨ sysid.take 3 ≠ sysid) := by simp [← h]
  have rest : sysid.drop 3 = [] := by simp [← h]
  simp only [frameCheck, if_neg not_foreign, rest]

/-- A byte of 0x80 or more behind SYSID fails the body checks (R163). -/
theorem bodyCheck_unclean {id : Byte} {p : List Byte} (h : ∃ b ∈ id :: p, 128 ≤ b.toNat) :
    bodyCheck id p = .error (.unrecognized (some id)) := by
  have unclean : (id :: p).any (fun b => 128 ≤ b.toNat) = true := by
    simpa only [List.any_eq_true, decide_eq_true_eq] using h
  rw [bodyCheck, if_pos unclean]

/-- Settles O24 (R161 to R163): the three faults, each answered. -/
theorem parseTurnsAwayForeignAndUncleanFrames :
    Obligations.ParseTurnsAwayForeignAndUncleanFrames := by
  intro f s hsysid
  refine ⟨fun hforeign => exec_parse_error (frameCheck_foreign hforeign), ?_, ?_⟩
  · rintro rfl
    exact exec_parse_error (frameCheck_bare hsysid)
  · rintro id p rfl hunclean
    exact exec_parse_error (frameCheck_frame_error hsysid (bodyCheck_unclean hunclean))

/-! ### Rows and PARSE -/

/-- A PARSE row is the checks and the merge of its payload (R160). -/
theorem exec_row_payload {i : Instr} {id : Byte} (h : i.inboundId = some id) (s : State) :
    exec i s = finishParse (mergeChecked id i.payload (mergeBody id i.payload s.mirror)) s := by
  cases i <;> cases h <;> rfl

/-- Settles O25 (log 11): a frame that selects a row passes the checks, and the row merges the
frame's payload; any other frame selects PARSE itself. -/
theorem parseRowsAgreeWithParse : Obligations.ParseRowsAgreeWithParse := by
  intro f i s hdecode
  rw [decode_parse] at hdecode
  obtain rfl := Except.ok.inj hdecode
  unfold parseRow decodeFrame
  split
  · next id p hcheck =>
    have hsysid := frameCheck_sysid hcheck
    obtain ⟨rfl, hbody⟩ := (frameCheck_ok_iff hsysid).mp hcheck
    obtain ⟨row, hrow, -, hexec⟩ := decodeBody_row hbody
    rw [hrow, Option.getD_some, hexec, exec_parse_frame hsysid, mergeChecked, hbody]
  · rfl

/-- Settles O26 (log 12): an ill-formed row's payload fails the body checks. -/
theorem parseRowsTurnAwayIllFormedPayloads : Obligations.ParseRowsTurnAwayIllFormedPayloads := by
  intro i id s hrow hshape
  rw [exec_row_payload hrow]
  obtain ⟨hbody, -⟩ | ⟨-, hfault⟩ :=
    mergeChecked_cases id i.payload (mergeBody id i.payload s.mirror)
  · rw [(row_wf_iff s.config hrow).mpr hbody] at hshape
    cases hshape
  · rw [hfault]
    rfl

/-- The row of an accepted frame and PARSE of the frame both answer the merge's error
(R55, R160). -/
theorem exec_accepted_error {row i : Instr} {id : Byte} {p : List Byte} {s : State} {e : Err}
    (hsysid : s.config.sysid.length = 3) (hwire : ∀ b ∈ id :: p, b.toNat < 128)
    (hlen : inboundPayloadLen id = some p.length)
    (hrow : exec row s = finishParse (mergeChecked id p (mergeBody id p s.mirror)) s)
    (hi : i = row ∨ i = .parse (frame s.config.sysid id p))
    (hmerge : mergeBody id p s.mirror = .error e) : exec i s = .next (s.raise e) := by
  have hbody : bodyCheck id p = .ok () := bodyCheck_ok_iff.mpr ⟨hwire, hlen⟩
  have hexec : exec i s = finishParse (mergeChecked id p (mergeBody id p s.mirror)) s := by
    obtain rfl | rfl := hi
    · exact hrow
    · exact exec_parse_frame hsysid id p
  simp only [hexec, mergeChecked, hbody, hmerge, finishParse_error]

/-! ### What each merge answers -/

section Merges

variable {lo hi : Byte} (m : Mirror)

theorem mergeProgParam_nibbles (index : Byte) (hlo : lo.toNat < 16) (hhi : hi.toNat < 16) :
    mergeProgParam index lo hi m =
      .ok (m.setEditParam index.toNat (joinNibbles lo hi), .editParam index.toNat) := by
  rw [mergeProgParam, nibDec_ok hlo hhi]
  rfl

theorem mergeProgParam_range (index : Byte) (h : ¬(lo.toNat < 16 ∧ hi.toNat < 16)) :
    mergeProgParam index lo hi m = .error (rangeErr [lo.toNat, hi.toNat]) := by
  rw [mergeProgParam, nibDec_error h]
  rfl

theorem mergeSeqStep_nibbles {step : Byte} (hstep : step.toNat < 64) (hlo : lo.toNat < 16)
    (hhi : hi.toNat < 16) :
    mergeSeqStep step lo hi m =
      .ok (m.setEditSeq step.toNat (joinNibbles lo hi), .seqStep step.toNat) := by
  rw [mergeSeqStep, checkStep, checkBelow_ok hstep, nibDec_ok hlo hhi]
  rfl

theorem mergeSeqStep_step {step : Byte} (hstep : 64 ≤ step.toNat) (lo hi : Byte) :
    mergeSeqStep step lo hi m = .error (rangeErr [step.toNat]) := by
  rw [mergeSeqStep, checkStep, checkBelow_error hstep]
  rfl

theorem mergeSeqStep_range {step : Byte} (hstep : step.toNat < 64)
    (h : ¬(lo.toNat < 16 ∧ hi.toNat < 16)) :
    mergeSeqStep step lo hi m = .error (rangeErr [lo.toNat, hi.toNat]) := by
  rw [mergeSeqStep, checkStep, checkBelow_ok hstep, nibDec_error h]
  rfl

theorem mergeMainParam_nibbles {index : Byte} (hindex : index.toNat < 16) (hlo : lo.toNat < 16)
    (hhi : hi.toNat < 16) :
    mergeMainParam index lo hi m =
      .ok (m.setMainParam index.toNat (joinNibbles lo hi), .mainParam index.toNat) := by
  rw [mergeMainParam, checkMainIndex, checkBelow_ok hindex, nibDec_ok hlo hhi]
  rfl

theorem mergeMainParam_index {index : Byte} (hindex : 16 ≤ index.toNat) (lo hi : Byte) :
    mergeMainParam index lo hi m = .error (rangeErr [index.toNat]) := by
  rw [mergeMainParam, checkMainIndex, checkBelow_error hindex]
  rfl

theorem mergeMainParam_range {index : Byte} (hindex : index.toNat < 16)
    (h : ¬(lo.toNat < 16 ∧ hi.toNat < 16)) :
    mergeMainParam index lo hi m = .error (rangeErr [lo.toNat, hi.toNat]) := by
  rw [mergeMainParam, checkMainIndex, checkBelow_ok hindex, nibDec_error h]
  rfl

theorem mergeProgramDump_cell {bank : Byte} (hbank : bank.toNat < 4) (program : Byte)
    (packed : List Byte) :
    mergeProgramDump bank program packed m =
      .ok (m.setCellParams bank.toNat program.toNat (some (unpack packed)),
        .cellParams bank.toNat program.toNat) := by
  rw [mergeProgramDump, checkBank, checkBelow_ok hbank]
  rfl

theorem mergeProgramDump_bank {bank : Byte} (hbank : 4 ≤ bank.toNat) (program : Byte)
    (packed : List Byte) :
    mergeProgramDump bank program packed m = .error (rangeErr [bank.toNat]) := by
  rw [mergeProgramDump, checkBank, checkBelow_error hbank]
  rfl

theorem mergeNameDump_cell {bank : Byte} (hbank : bank.toNat < 4) (program : Byte)
    (name : List Byte) :
    mergeNameDump bank program name m =
      .ok (m.setCellName bank.toNat program.toNat (some (strDec name)),
        .cellName bank.toNat program.toNat) := by
  rw [mergeNameDump, checkBank, checkBelow_ok hbank]
  rfl

theorem mergeNameDump_bank {bank : Byte} (hbank : 4 ≤ bank.toNat) (program : Byte)
    (name : List Byte) :
    mergeNameDump bank program name m = .error (rangeErr [bank.toNat]) := by
  rw [mergeNameDump, checkBank, checkBelow_error hbank]
  rfl

theorem mergeMainDump_ok_of_nibbles {nibbles vs : List Byte} (h : nibDecAll nibbles = .ok vs) :
    mergeMainDump nibbles m = .ok (m.setMainAll vs, .mainAll) := by
  rw [mergeMainDump, h]
  rfl

theorem mergeMainDump_error {nibbles : List Byte} {e : Err} (h : nibDecAll nibbles = .error e) :
    mergeMainDump nibbles m = .error e := by
  rw [mergeMainDump, h]
  rfl

end Merges

/-! ### Runs of nibble pairs -/

/-- Pairs of nibbles decode pair by pair (R168). -/
theorem nibDecAll_ok_of_nibbles :
    ∀ p : List Byte, (∀ b ∈ p, b.toNat < 16) → ∃ vs, nibDecAll p = .ok vs ∧
      ∀ j, 2 * j + 1 < p.length →
        vs.getD j 0 = joinNibbles (p.getD (2 * j) 0) (p.getD (2 * j + 1) 0)
  | [], _ | [_], _ => ⟨[], rfl, fun j hj => by simp at hj⟩
  | lo :: hi :: rest, h => by
    obtain ⟨hlo, hhi, hrest⟩ : lo.toNat < 16 ∧ hi.toNat < 16 ∧ ∀ b ∈ rest, b.toNat < 16 := by
      simpa using h
    obtain ⟨vs, hvs, hjoin⟩ := nibDecAll_ok_of_nibbles rest hrest
    refine ⟨joinNibbles lo hi :: vs, by rw [nibDecAll, nibDec_ok hlo hhi, hvs]; rfl, ?_⟩
    rintro (_ | j) hj
    · rfl
    · exact hjoin j (by simp at hj; omega)

/-- The first pair with a byte that is no nibble is the error (R168, R206). -/
theorem nibDecAll_range :
    ∀ (p : List Byte) (j : Nat), 2 * j + 1 < p.length →
      (∀ k, k < 2 * j → (p.getD k 0).toNat < 16) →
      ¬((p.getD (2 * j) 0).toNat < 16 ∧ (p.getD (2 * j + 1) 0).toNat < 16) →
      nibDecAll p = .error (rangeErr [(p.getD (2 * j) 0).toNat, (p.getD (2 * j + 1) 0).toNat])
  | [], _, hj, _, _ | [_], _, hj, _, _ => by simp at hj
  | lo :: hi :: rest, 0, _, _, hbad => by
    rw [nibDecAll, nibDec_error (lo := lo) (hi := hi) hbad]
    rfl
  | lo :: hi :: rest, j + 1, hj, hbefore, hbad => by
    have hlo : lo.toNat < 16 := hbefore 0 (by omega)
    have hhi : hi.toNat < 16 := hbefore 1 (by omega)
    have hrest := nibDecAll_range rest j (by simp at hj; omega)
      (fun k hk => hbefore (k + 2) (by omega)) hbad
    rw [nibDecAll, nibDec_ok hlo hhi, hrest]
    rfl

/-! ### The single-parameter updates -/

theorem not_nibbles_of_or {lo hi : Byte} (h : 16 ≤ lo.toNat ∨ 16 ≤ hi.toNat) :
    ¬(lo.toNat < 16 ∧ hi.toNat < 16) := by
  omega

/-- Three wire bytes behind an identifier that is one. -/
theorem wire_three {id a b c : Byte} (hid : id.toNat < 128) (ha : a.toNat < 128)
    (hb : b.toNat < 128) (hc : c.toNat < 128) : ∀ x ∈ [id, a, b, c], x.toNat < 128 := by
  simp [hid, ha, hb, hc]

/-- Settles O27 (R170): the merge's one write is the parameter, its one error the nibbles'. -/
theorem parseProgParamSetsOneParameter : Obligations.ParseProgParamSetsOneParameter := by
  intro index lo hi s i hwf hindex hlo hhi hrow
  obtain ⟨⟨hsysid, -⟩, hparam, -⟩ := hwf
  have hwire := wire_three (id := 0x01) (by decide) hindex hlo hhi
  refine ⟨fun ⟨hlo, hhi⟩ => ?_, fun hbad => ?_⟩
  · have hmerge := mergeProgParam_nibbles s.mirror index hlo hhi
    obtain ⟨hexec, honly⟩ := exec_accepted hsysid hwire rfl (hrow := rfl) hrow hmerge
    refine ⟨_, hexec, ?_, rfl, honly⟩
    rw [State.commit_mirror, Mirror.editParam_setEditParam _ _ _ (by omega),
      joinNibbles_toNat hlo hhi]
  · exact exec_accepted_error hsysid hwire rfl (hrow := rfl) hrow
      (mergeProgParam_range s.mirror index (not_nibbles_of_or hbad))

/-- Settles O28 (R171, D13): the merge's one write is the step; the step is checked before the
nibbles. -/
theorem parseSeqStepSetsOneStep : Obligations.ParseSeqStepSetsOneStep := by
  intro step lo hi s i hwf hstep hlo hhi hrow
  obtain ⟨⟨hsysid, -⟩, -, hseq, -⟩ := hwf
  have hwire := wire_three (id := 0x08) (by decide) hstep hlo hhi
  refine ⟨fun hstep ⟨hlo, hhi⟩ => ?_, fun hstep => ?_, fun hstep hbad => ?_⟩
  · have hmerge := mergeSeqStep_nibbles s.mirror hstep hlo hhi
    obtain ⟨hexec, honly⟩ := exec_accepted hsysid hwire rfl (hrow := rfl) hrow hmerge
    refine ⟨_, hexec, ?_, rfl, honly⟩
    rw [State.commit_mirror, Mirror.editSeq_setEditSeq _ _ _ (by omega), joinNibbles_toNat hlo hhi]
  · exact exec_accepted_error hsysid hwire rfl (hrow := rfl) hrow
      (mergeSeqStep_step s.mirror hstep lo hi)
  · exact exec_accepted_error hsysid hwire rfl (hrow := rfl) hrow
      (mergeSeqStep_range s.mirror hstep (not_nibbles_of_or hbad))

/-- Settles O29 (R172, D13): the merge's one write is the parameter; the index is checked before
the nibbles. -/
theorem parseMainParamSetsOneParameter : Obligations.ParseMainParamSetsOneParameter := by
  intro index lo hi s i hwf hindex hlo hhi hrow
  obtain ⟨⟨hsysid, -⟩, -, -, hmain, -⟩ := hwf
  have hwire := wire_three (id := 0x09) (by decide) hindex hlo hhi
  refine ⟨fun hindex ⟨hlo, hhi⟩ => ?_, fun hindex => ?_, fun hindex hbad => ?_⟩
  · have hmerge := mergeMainParam_nibbles s.mirror hindex hlo hhi
    obtain ⟨hexec, honly⟩ := exec_accepted hsysid hwire rfl (hrow := rfl) hrow hmerge
    refine ⟨_, hexec, ?_, rfl, honly⟩
    rw [State.commit_mirror, Mirror.mainParam_setMainParam _ _ _ (by omega),
      joinNibbles_toNat hlo hhi]
  · exact exec_accepted_error hsysid hwire rfl (hrow := rfl) hrow
      (mergeMainParam_index s.mirror hindex lo hi)
  · exact exec_accepted_error hsysid hwire rfl (hrow := rfl) hrow
      (mergeMainParam_range s.mirror hindex (not_nibbles_of_or hbad))

/-! ### The dumps of a cell -/

/-- A cell's two address bytes and its data behind an identifier, all wire bytes. -/
theorem wire_cell {id bank program : Byte} {data : List Byte} (hid : id.toNat < 128)
    (hbank : bank.toNat < 128) (hprogram : program.toNat < 128)
    (hdata : ∀ b ∈ data, b.toNat < 128) :
    ∀ b ∈ id :: bank :: program :: data, b.toNat < 128 := by
  simpa [hid, hbank, hprogram] using hdata

/-- Settles O30 (R165, C3): the merge's one write is the cell's params, from the 192 bytes that
MSB.UNPACK answers. -/
theorem parseProgramDumpSetsCellParams : Obligations.ParseProgramDumpSetsCellParams := by
  intro bank program packed s i hwf hbank hprogram hpacked hlen hrow
  obtain ⟨⟨hsysid, -, hmax, -⟩, -, -, -, hcells, -⟩ := hwf
  have hwire := wire_cell (id := 0x02) (by decide) hbank hprogram hpacked
  rw [show s.config.sysid ++ [0x02, bank, program] ++ packed =
    frame s.config.sysid 0x02 (bank :: program :: packed) from
    (frame_append _ _ [bank, program] packed).symm] at hrow
  have htabled : inboundPayloadLen 0x02 = some (bank :: program :: packed).length := by
    rw [List.length_cons, List.length_cons, hlen]
    rfl
  refine ⟨fun hbank => ?_, fun hbank => ?_⟩
  · obtain ⟨hexec, honly⟩ := exec_accepted hsysid hwire htabled (hrow := rfl) hrow
      (mergeProgramDump_cell s.mirror hbank program packed)
    exact ⟨_, unpack packed, hexec, exec_msbUnpack (by omega), by rw [unpack_length, hlen],
      Mirror.cellParams_setCellParams _ _ _ _ (hcells ▸ cellIndex_lt hbank hprogram), rfl, honly⟩
  · exact exec_accepted_error hsysid hwire htabled (hrow := rfl) hrow
      (mergeProgramDump_bank s.mirror hbank program packed)

/-- Settles O34 (R169): the merge's one write is the cell's name, which is what STR.DEC answers. -/
theorem parseNameDumpSetsCellName : Obligations.ParseNameDumpSetsCellName := by
  intro bank program name s i hwf hbank hprogram hname hlen hrow
  obtain ⟨⟨hsysid, -⟩, -, -, -, hcells, -⟩ := hwf
  have hwire := wire_cell (id := 0x11) (by decide) hbank hprogram hname
  rw [show s.config.sysid ++ [0x11, bank, program] ++ name =
    frame s.config.sysid 0x11 (bank :: program :: name) from
    (frame_append _ _ [bank, program] name).symm] at hrow
  have htabled : inboundPayloadLen 0x11 = some (bank :: program :: name).length := by
    rw [List.length_cons, List.length_cons, hlen]
    rfl
  refine ⟨fun hbank => ?_, fun hbank => ?_⟩
  · obtain ⟨hexec, honly⟩ := exec_accepted hsysid hwire htabled (hrow := rfl) hrow
      (mergeNameDump_cell s.mirror hbank program name)
    exact ⟨_, strDec name, hexec, exec_strDec hlen s,
      Mirror.cellName_setCellName _ _ _ _ (hcells ▸ cellIndex_lt hbank hprogram), rfl, honly⟩
  · exact exec_accepted_error hsysid hwire htabled (hrow := rfl) hrow
      (mergeNameDump_bank s.mirror hbank program name)

/-! ### The main dump -/

/-- Settles O33 (R168, D14, D18): the merge's one write is the 16 joined pairs; the first pair that
is none is its error, and then nothing is written. -/
theorem parseMainDumpSetsAllOrNothing : Obligations.ParseMainDumpSetsAllOrNothing := by
  intro nibbles s i hwf hwire hlen hrow
  obtain ⟨⟨hsysid, -⟩, -⟩ := hwf
  have hbytes : ∀ b ∈ 0x0F :: nibbles, b.toNat < 128 :=
    List.forall_mem_cons.mpr ⟨by decide, hwire⟩
  have htabled : inboundPayloadLen 0x0F = some nibbles.length := by rw [hlen]; rfl
  rw [show s.config.sysid ++ [0x0F] ++ nibbles = frame s.config.sysid 0x0F nibbles from
    (frame_append _ _ [] nibbles).symm] at hrow
  refine ⟨fun hnibbles => ?_, fun j hj hbefore hbad => ?_⟩
  · obtain ⟨vs, hvs, hjoin⟩ := nibDecAll_ok_of_nibbles nibbles hnibbles
    obtain ⟨hexec, honly⟩ := exec_accepted hsysid hbytes htabled (hrow := rfl) hrow
      (mergeMainDump_ok_of_nibbles s.mirror hvs)
    have nibble : ∀ k < 32, (nibbles.getD k 0).toNat < 16 := fun k hk => by
      rw [List.getD_eq_getElem _ _ (hlen ▸ hk)]
      exact hnibbles _ (List.getElem_mem _)
    refine ⟨_, hexec, fun j hj => ?_, rfl, honly⟩
    rw [← joinNibbles_toNat (nibble _ (by omega)) (nibble _ (by omega)), ← hjoin j (by omega)]
    rfl
  · exact exec_accepted_error hsysid hbytes htabled (hrow := rfl) hrow
      (mergeMainDump_error s.mirror
        (nibDecAll_range nibbles j (by omega) hbefore (not_nibbles_of_or hbad)))

/-! ### A second application -/

section SetTwice

variable (m : Mirror)

@[simp] theorem Mirror.setEditParam_setEditParam (i : Nat) (v w : Byte) :
    (m.setEditParam i v).setEditParam i w = m.setEditParam i w := by
  simp [Mirror.setEditParam]

@[simp] theorem Mirror.setEditSeq_setEditSeq (i : Nat) (v w : Byte) :
    (m.setEditSeq i v).setEditSeq i w = m.setEditSeq i w := by
  simp [Mirror.setEditSeq]

@[simp] theorem Mirror.setMainParam_setMainParam (i : Nat) (v w : Byte) :
    (m.setMainParam i v).setMainParam i w = m.setMainParam i w := by
  simp [Mirror.setMainParam]

@[simp] theorem Mirror.setCellParams_setCellParams (b p : Nat) (v w : Option (List Byte)) :
    (m.setCellParams b p v).setCellParams b p w = m.setCellParams b p w := by
  simp only [Mirror.setCellParams, List.modify_modify_eq]
  rfl

@[simp] theorem Mirror.setCellName_setCellName (b p : Nat) (v w : Option (List Byte)) :
    (m.setCellName b p v).setCellName b p w = m.setCellName b p w := by
  simp only [Mirror.setCellName, List.modify_modify_eq]
  rfl

@[simp] theorem Mirror.setWave_setWave (i : Nat) (v w : Option (List Point)) :
    (m.setWave i v).setWave i w = m.setWave i w := by
  simp [Mirror.setWave]

end SetTwice

/-- The merge of a payload, applied to the mirror it has left, leaves it as it is: every merge
sets its region to values of the payload alone. -/
theorem mergeBody_again {id : Byte} {p : List Byte} {m m' : Mirror} {tag : Tag}
    (h : mergeBody id p m = .ok (m', tag)) : mergeBody id p m' = .ok (m', tag) := by
  unfold mergeBody at h ⊢
  split_ifs at h ⊢
  · obtain ⟨rfl, rfl, hlo, hhi⟩ := mergeProgParam_ok h
    rw [mergeProgParam_nibbles _ _ hlo hhi, Mirror.setEditParam_setEditParam]
  · obtain ⟨rfl, rfl, hbank⟩ := mergeProgramDump_ok h
    rw [mergeProgramDump_cell _ hbank, Mirror.setCellParams_setCellParams]
  · cases h
    rfl
  · obtain ⟨rfl, rfl, hstep, hlo, hhi⟩ := mergeSeqStep_ok h
    rw [mergeSeqStep_nibbles _ hstep hlo hhi, Mirror.setEditSeq_setEditSeq]
  · obtain ⟨rfl, rfl, hindex, hlo, hhi⟩ := mergeMainParam_ok h
    rw [mergeMainParam_nibbles _ hindex hlo hhi, Mirror.setMainParam_setMainParam]
  · cases h
    rw [mergeWaveDump, Mirror.setWave_setWave]
  · obtain ⟨vs, hvs, rfl, rfl⟩ := mergeMainDump_ok h
    exact mergeMainDump_ok_of_nibbles _ hvs
  · obtain ⟨rfl, rfl, hbank⟩ := mergeNameDump_ok h
    rw [mergeNameDump_cell _ hbank, Mirror.setCellName_setCellName]

/-- PARSE of a frame that passes the checks ends as the merge of its payload (R160). -/
theorem exec_parse_ok {f p : List Byte} {id : Byte} {s : State}
    (h : frameCheck s.config.sysid f = .ok (id, p)) :
    exec (.parse f) s = finishParse (mergeBody id p s.mirror) s := by
  change execParse f s = _
  simp only [execParse, h]

/-- Settles O35 (20_memory.md section 3): an error has left the state, and a merge is repeated. -/
theorem reapplyingAFrameChangesNothing : Obligations.ReapplyingAFrameChangesNothing := by
  intro f s t hexec
  cases hcheck : frameCheck s.config.sysid f with
  | error e =>
    rw [exec_parse_error hcheck] at hexec
    obtain rfl := Host.Outcome.next.inj hexec
    exact exec_parse_error (s := s.raise _) hcheck
  | ok accepted =>
    obtain ⟨id, p⟩ := accepted
    rw [exec_parse_ok hcheck] at hexec
    obtain ⟨m, tag, hmerge, rfl⟩ | ⟨e, hmerge, rfl⟩ := finishParse_cases hexec
    · rw [exec_parse_ok (s := s.commit m tag) hcheck, State.commit_mirror, mergeBody_again hmerge]
      rfl
    · rw [exec_parse_ok (s := s.raise e) hcheck, State.raise_mirror, hmerge]
      rfl

end Sys2Proof.Machine

/-! Assembler and parser agree (42_parser.md section 4, R174): PARSE of a frame that the assembler
answered writes the operands that the frame was built from. -/

namespace Sys2Proof.Machine

/-! ### The operands come back -/

/-- The merge of an update that carries a value's nibbles writes the value (R102, R170). -/
theorem mergeBody_progParam {index : Nat} (h : index < 128) (value : Byte) (m : Mirror) :
    mergeBody 0x01 (addrByte index :: nibPair value) m =
      .ok (m.setEditParam index value, .editParam index) := by
  have hmerge := mergeProgParam_nibbles m (addrByte index) (lowNibble_lt value)
    (highNibble_lt value)
  rwa [addrByte_toNat (by omega), joinNibbles_lowNibble_highNibble] at hmerge

theorem mergeBody_seqStep {step : Nat} (h : step < 64) (value : Byte) (m : Mirror) :
    mergeBody 0x08 (addrByte step :: nibPair value) m =
      .ok (m.setEditSeq step value, .seqStep step) := by
  have hstep : (addrByte step).toNat = step := addrByte_toNat (by omega)
  have hmerge := mergeSeqStep_nibbles m (step := addrByte step) (by omega) (lowNibble_lt value)
    (highNibble_lt value)
  rwa [hstep, joinNibbles_lowNibble_highNibble] at hmerge

theorem mergeBody_mainParam {index : Nat} (h : index < 16) (value : Byte) (m : Mirror) :
    mergeBody 0x09 (addrByte index :: nibPair value) m =
      .ok (m.setMainParam index value, .mainParam index) := by
  have hindex : (addrByte index).toNat = index := addrByte_toNat (by omega)
  have hmerge := mergeMainParam_nibbles m (index := addrByte index) (by omega) (lowNibble_lt value)
    (highNibble_lt value)
  rwa [hindex, joinNibbles_lowNibble_highNibble] at hmerge

/-- The merge of a program dump that carries a packed snapshot writes the snapshot (R110, R165). -/
theorem mergeBody_programDump {bank program : Nat} (hbank : bank < 4) (hprogram : program < 128)
    (u : List Byte) (m : Mirror) :
    mergeBody 0x02 (addrByte bank :: addrByte program :: pack u) m =
      .ok (m.setCellParams bank program (some u), .cellParams bank program) := by
  have hb : (addrByte bank).toNat = bank := addrByte_toNat (by omega)
  have hmerge := mergeProgramDump_cell m (bank := addrByte bank) (by omega) (addrByte program)
    (pack u)
  rwa [hb, addrByte_toNat (by omega), unpack_pack] at hmerge

theorem mergeBody_editDump (u : List Byte) (m : Mirror) :
    mergeBody 0x03 (pack u) m = .ok (m.setEditAll u, .editAll) := by
  change mergeEditDump (pack u) m = _
  rw [mergeEditDump, unpack_pack]

/-- A point's two bytes join to the point (R50). -/
theorem joinBytes_halves (pt : Point) : joinBytes (pt.setWidth 8) ((pt >>> 8).setWidth 8) = pt := by
  apply BitVec.eq_of_toNat_eq
  rw [joinBytes_toNat]
  simp [Nat.shiftRight_eq_div_pow]
  omega

/-- The points of the bytes of points are the points (R50, R133, R167). -/
theorem pointsOfBytes_bytesOfPoints (pts : List Point) :
    pointsOfBytes (bytesOfPoints pts) = pts := by
  induction pts with
  | nil => rfl
  | cons pt pts ih => rw [bytesOfPoints_cons, pointsOfBytes, joinBytes_halves, ih]

theorem mergeBody_waveDump {waveshape : Nat} (h : waveshape < 128) (pts : List Point) (m : Mirror) :
    mergeBody 0x0A (addrByte waveshape :: pack (bytesOfPoints pts)) m =
      .ok (m.setWave waveshape (some pts), .wave waveshape) := by
  change mergeWaveDump (addrByte waveshape) (pack (bytesOfPoints pts)) m = _
  rw [mergeWaveDump, unpack_pack, pointsOfBytes_bytesOfPoints, addrByte_toNat (by omega)]

/-- The nibble pairs of values decode to the values (R102, R134, R168). -/
theorem nibDecAll_flatMap_nibPair (vs : List Byte) : nibDecAll (vs.flatMap nibPair) = .ok vs := by
  induction vs with
  | nil => rfl
  | cons v vs ih =>
    change nibDecAll (lowNibble v :: highNibble v :: vs.flatMap nibPair) = _
    rw [nibDecAll, nibDec_nibbles, ih]
    rfl

theorem mergeBody_mainDump (vs : List Byte) (m : Mirror) :
    mergeBody 0x0F (vs.flatMap nibPair) m = .ok (m.setMainAll vs, .mainAll) :=
  mergeMainDump_ok_of_nibbles m (nibDecAll_flatMap_nibPair vs)

theorem mergeBody_nameDump {bank program : Nat} (hbank : bank < 4) (hprogram : program < 128)
    (b : List Byte) (m : Mirror) :
    mergeBody 0x11 (addrByte bank :: addrByte program :: b) m =
      .ok (m.setCellName bank program (some (strDec b)), .cellName bank program) := by
  have hb : (addrByte bank).toNat = bank := addrByte_toNat (by omega)
  have hmerge := mergeNameDump_cell m (bank := addrByte bank) (by omega) (addrByte program) b
  rwa [hb, addrByte_toNat (by omega)] at hmerge

/-! ### PARSE of an assembled frame -/

/-- The inbound kinds have the payload length that the frame table gives them (R74, R160). -/
theorem inboundPayloadLen_of_wirePayload {id : Byte} {p : List Byte} (hp : WirePayload id p)
    (hinbound : inboundPayloadLen id ≠ none) : inboundPayloadLen id = some p.length := by
  obtain ⟨n, hn⟩ := Option.ne_none_iff_exists'.mp hinbound
  have table : ∀ kind ∈ inboundKinds, tabledFrameLength kind.1 = some (kind.2 + 4) := by decide
  have hlen := (table _ (inboundPayloadLen_eq_some_iff.mp hn)).symm.trans hp.length
  rw [hn, show n = p.length by simpa using hlen]

theorem frame_inj {sysid p q : List Byte} {id id' : Byte}
    (h : frame sysid id p = frame sysid id' q) : id = id' ∧ p = q :=
  List.cons.inj (List.append_cancel_left h)

/-- A receiver with the sender's parameters accepts an assembled frame of an inbound kind and
commits its payload's merge (R160, R174). -/
theorem exec_parse_assembled {i : Instr} {s r : State} {f p : List Byte} {id : Byte} {m : Mirror}
    {tag : Tag} (h : Assembles i s f) (hf : f = frame s.config.sysid id p)
    (hsysid : s.config.sysid.length = 3) (hconfig : r.config = s.config)
    (hinbound : inboundPayloadLen id ≠ none) (hmerge : mergeBody id p r.mirror = .ok (m, tag)) :
    exec (.parse f) r = .next (r.commit m tag) ∧ State.OnlyWrites tag r (r.commit m tag) := by
  obtain ⟨id', p', hkind, hf', hp⟩ := h.wirePayload
  obtain ⟨rfl, rfl⟩ := frame_inj (hf.symm.trans hf')
  have hwire : ∀ b ∈ id :: p, b.toNat < 128 :=
    List.forall_mem_cons.mpr ⟨hkind ▸ kindField_encode_wire _ i, hp.wire⟩
  rw [← hconfig] at hsysid hf
  rw [hf]
  exact exec_accepted hsysid hwire (inboundPayloadLen_of_wirePayload hp hinbound)
    (exec_parse_frame hsysid id p) (.inl rfl) hmerge

/-- Settles O36 (R174): the frame's operands are in range, its payload merges to the value. -/
theorem assembledUpdatesParseBack : Obligations.AssembledUpdatesParseBack := by
  intro index value s t r f hsender hreceiver hconfig hresponse
  obtain ⟨hsysid, -⟩ := hsender
  obtain ⟨-, hparam, hseq, hmain, -⟩ := hreceiver
  refine ⟨fun hexec => ?_, fun hexec => ?_, fun hexec => ?_⟩
  · have h : Assembles (.asmProgParam index value) s f := ⟨t, _, _, hexec, hresponse⟩
    obtain ⟨hindex, hf⟩ := assembles_asmProgParam h
    obtain ⟨hparse, honly⟩ := exec_parse_assembled h hf hsysid hconfig (by decide)
      (mergeBody_progParam hindex value r.mirror)
    exact ⟨_, hparse, rfl, Mirror.editParam_setEditParam _ _ _ (by omega), honly⟩
  · have h : Assembles (.asmSeqStep index value) s f := ⟨t, _, _, hexec, hresponse⟩
    obtain ⟨hstep, hf⟩ := assembles_asmSeqStep h
    obtain ⟨hparse, honly⟩ := exec_parse_assembled h hf hsysid hconfig (by decide)
      (mergeBody_seqStep hstep value r.mirror)
    exact ⟨_, hparse, rfl, Mirror.editSeq_setEditSeq _ _ _ (by omega), honly⟩
  · have h : Assembles (.asmMainParam index value) s f := ⟨t, _, _, hexec, hresponse⟩
    obtain ⟨hindex, hf⟩ := assembles_asmMainParam h
    obtain ⟨hparse, honly⟩ := exec_parse_assembled h hf hsysid hconfig (by decide)
      (mergeBody_mainParam hindex value r.mirror)
    exact ⟨_, hparse, rfl, Mirror.mainParam_setMainParam _ _ _ (by omega), honly⟩

/-- Settles O37 (R174): the payload unpacks to the snapshot or to the points' bytes. -/
theorem assembledPackedDumpsParseBack : Obligations.AssembledPackedDumpsParseBack := by
  intro bank program waveshape params seq pts s t r f hsender hreceiver hconfig hresponse
  obtain ⟨hsysid, -⟩ := hsender
  obtain ⟨-, -, -, -, hcells, -, hwaves, -⟩ := hreceiver
  refine ⟨fun hexec => ?_, fun hexec => ?_, fun hexec => ?_⟩
  · have h : Assembles (.asmProgramDump bank program params seq) s f := ⟨t, _, _, hexec, hresponse⟩
    obtain ⟨-, ⟨hbank, hprogram⟩, hf⟩ := assembles_asmProgramDump h
    obtain ⟨hparse, honly⟩ := exec_parse_assembled h hf hsysid hconfig (by decide)
      (mergeBody_programDump hbank hprogram _ r.mirror)
    exact ⟨_, hparse, rfl,
      Mirror.cellParams_setCellParams _ _ _ _ (hcells ▸ cellIndex_lt hbank hprogram), honly⟩
  · have h : Assembles (.asmEditDump params seq) s f := ⟨t, _, _, hexec, hresponse⟩
    obtain ⟨⟨hparams, -⟩, hf⟩ := assembles_asmEditDump h
    obtain ⟨hparse, honly⟩ := exec_parse_assembled h hf hsysid hconfig (by decide)
      (mergeBody_editDump _ r.mirror)
    exact ⟨_, hparse, rfl, List.take_left' hparams, List.drop_left' hparams, honly⟩
  · have h : Assembles (.asmWaveDump waveshape pts) s f := ⟨t, _, _, hexec, hresponse⟩
    obtain ⟨-, hwave, hf⟩ := assembles_asmWaveDump h
    obtain ⟨hparse, honly⟩ := exec_parse_assembled h hf hsysid hconfig (by decide)
      (mergeBody_waveDump hwave pts r.mirror)
    exact ⟨_, hparse, rfl, Mirror.wave_setWave _ _ _ (by omega), honly⟩

/-- Settles O38 (R174): the payload's pairs decode to the parameters, and its name is what STR.ENC
answers, of which the cell gets what STR.DEC answers. -/
theorem assembledMainAndNameDumpsParseBack : Obligations.AssembledMainAndNameDumpsParseBack := by
  intro bank program params name s t r f hsender hreceiver hconfig hresponse
  obtain ⟨hsysid, -⟩ := hsender
  obtain ⟨-, -, -, -, hcells, -⟩ := hreceiver
  refine ⟨fun hexec => ?_, fun hexec => ?_⟩
  · have h : Assembles (.asmMainDump params) s f := ⟨t, _, _, hexec, hresponse⟩
    obtain ⟨-, hf⟩ := assembles_asmMainDump h
    obtain ⟨hparse, honly⟩ := exec_parse_assembled h hf hsysid hconfig (by decide)
      (mergeBody_mainDump params r.mirror)
    exact ⟨_, hparse, rfl, rfl, honly⟩
  · have h : Assembles (.asmNameDump bank program name) s f := ⟨t, _, _, hexec, hresponse⟩
    obtain ⟨⟨hbank, hprogram⟩, ⟨hlen, hascii⟩, hf⟩ := assembles_asmNameDump h
    obtain ⟨hparse, honly⟩ := exec_parse_assembled h hf hsysid hconfig (by decide)
      (mergeBody_nameDump hbank hprogram _ r.mirror)
    exact ⟨_, asciiField name, strDec (asciiField name), hparse,
      exec_strEnc (strEnc_ok hlen hascii) s, exec_strDec (asciiField_length hlen) s, rfl,
      Mirror.cellName_setCellName _ _ _ _ (hcells ▸ cellIndex_lt hbank hprogram), honly⟩

end Sys2Proof.Machine
